-- ==== Sys2Proof/Word.lean ====
section
/-! DEFINITION. The word types of the controller: every width the spec names, and nothing that computes. -/

namespace Sys2Proof

/-- One byte: a brightness, an index operand, an opcode, a byte of the serial form. -/
abbrev Byte := BitVec 8

/-- One 32-bit word of a frame (spec/20_memory.md R51). -/
abbrev Word32 := BitVec 32

/-- The Enabled-LED Bitmask, 42 significant bits (spec/10_state.md R21). -/
abbrev Mask := BitVec 42

/-- A host command word `C[71:0]` (spec/30_encoding.md R71). -/
abbrev CmdWord := BitVec 72

/-- A response word or a frame as one 64-bit value (spec/30_encoding.md R77, spec/20_memory.md R51). -/
abbrev Frame64 := BitVec 64

/-- A matrix pin number, 0..6 (spec/00_scope.md R9). -/
abbrev Pin := Fin 7

/-- An in-range LED index, 0..41 (spec/10_state.md R41). -/
abbrev LedIndex := Fin 42

end Sys2Proof
end

