-- ==== Sys2Proof/Syntax.lean ====
section
/-! DEFINITION. The instructions (one constructor per row of spec/opcode_table.json) and the assembler's source
lines (spec/30_encoding.md R79, R81). -/

namespace Sys2Proof

/-- The twelve operations of the controller (spec/00_scope.md R2). An operand holds exactly the bits its field of the
command word holds (spec/30_encoding.md R72, R73), so every term of this type has an encoding. -/
inductive Instr where
  /-- `SET_BRIGHTNESS value`, format `V` (spec/42_data_ops.md R140). -/
  | setBrightness (value : Byte)
  /-- `GET_BRIGHTNESS`, format `N` (R141). -/
  | getBrightness
  /-- `SET_LED_BIT index, state`, format `IS` (R142). -/
  | setLedBit (index : Byte) (state : Bool)
  /-- `REPLACE_BITMASK w0, w1`, format `F` (R143). -/
  | replaceBitmask (w0 w1 : Word32)
  /-- `READ_BITMASK`, format `N` (R144). -/
  | readBitmask
  /-- `CLEAR_ALL`, format `N` (R145). -/
  | clearAll
  /-- `SET_ALL`, format `N` (R146). -/
  | setAll
  /-- `ENABLE_MULTIPLEX w0, w1`, format `F` (spec/43_mode_ops.md R160). -/
  | enableMultiplex (w0 w1 : Word32)
  /-- `DISABLE_MULTIPLEX`, format `N` (R161). -/
  | disableMultiplex
  /-- `DIRECT_DRIVE index, state`, format `IS` (R162). -/
  | directDrive (index : Byte) (state : Bool)
  /-- `SET_FAST_PWM_MODE enable`, format `E` (R163). -/
  | setFastPwmMode (enable : Bool)
  /-- `TICK`, format `T`: no command word, the 1-bit tick port (spec/41_scheduler_tick.md R120, spec/30_encoding.md R84). -/
  | tick
deriving DecidableEq, Repr

/-- The mnemonics, as spec/opcode_table.json spells them. -/
def Instr.mnemonic : Instr → String
  | .setBrightness _ => "SET_BRIGHTNESS"
  | .getBrightness => "GET_BRIGHTNESS"
  | .setLedBit _ _ => "SET_LED_BIT"
  | .replaceBitmask _ _ => "REPLACE_BITMASK"
  | .readBitmask => "READ_BITMASK"
  | .clearAll => "CLEAR_ALL"
  | .setAll => "SET_ALL"
  | .enableMultiplex _ _ => "ENABLE_MULTIPLEX"
  | .disableMultiplex => "DISABLE_MULTIPLEX"
  | .directDrive _ _ => "DIRECT_DRIVE"
  | .setFastPwmMode _ => "SET_FAST_PWM_MODE"
  | .tick => "TICK"

/-- The operand pair of a frame command: two numbers, or `FRAME` with a list of LED numbers (R81). -/
inductive FrameOperand where
  | words (w0 w1 : Nat)
  | leds (indices : List Nat)
deriving DecidableEq, Repr

/-- One line of assembler source (R79), the pseudo-instructions among them (R81). Operands are the numbers as written,
before any range check. -/
inductive AsmLine where
  | tick
  | setBrightness (value : Nat)
  | getBrightness
  | setLedBit (index state : Nat)
  | replaceBitmask (frame : FrameOperand)
  | readBitmask
  | clearAll
  | setAll
  | enableMultiplex (frame : FrameOperand)
  | disableMultiplex
  | directDrive (index state : Nat)
  | setFastPwmMode (enable : Nat)
  /-- `.word 0x...`: a raw 72-bit command word. -/
  | word (bits : Nat)
  /-- `TICKS n`. -/
  | ticks (count : Nat)
  /-- `LED_SET i`. -/
  | ledSet (index : Nat)
  /-- `LED_CLR i`. -/
  | ledClr (index : Nat)
  /-- `DIRECT_ON i`. -/
  | directOn (index : Nat)
  /-- `DIRECT_OFF i`. -/
  | directOff (index : Nat)
deriving DecidableEq, Repr

end Sys2Proof
end

