-- ==== Sys2Proof/WellFormed.lean ====
section
/-! DEFINITION. The range checks of the assembler (spec/30_encoding.md R79: an operand out of its field's range is an
assembly error), and well-formedness of an instruction: the line that writes it passes them. -/

namespace Sys2Proof

/-- Why a source line is refused. The first seven are R79's range errors; the last three are about its text. -/
inductive AsmError where
  /-- A brightness above 255. -/
  | valueOutOfRange (value : Nat)
  /-- An index above 255. -/
  | indexOutOfRange (index : Nat)
  /-- A state above 1. -/
  | stateOutOfRange (state : Nat)
  /-- An enable above 1. -/
  | enableOutOfRange (enable : Nat)
  /-- A frame word 0 above 0xFFFFFFFF. -/
  | w0OutOfRange (w0 : Nat)
  /-- A frame word 1 above 0xFFFFFFFF. -/
  | w1OutOfRange (w1 : Nat)
  /-- A raw word of more than 72 bits. -/
  | rawWordOutOfRange (bits : Nat)
  /-- No mnemonic, pseudo-instruction or directive of R79, R81. -/
  | unknownMnemonic
  /-- The operands do not have the shape the mnemonic takes. -/
  | wrongOperands
  /-- An operand that is no decimal or `0x` hexadecimal number. -/
  | notANumber
deriving DecidableEq, Repr

/-- Word 0 of a frame operand. For `FRAME`: exactly the listed bits below 32 are set (R81). -/
def FrameOperand.w0 : FrameOperand → Nat
  | .words w0 _ => w0
  | .leds is => is.foldl (fun acc i => if i < 32 then acc ||| 2 ^ i else acc) 0

/-- Word 1 of a frame operand. For `FRAME`: bit `i - 32` for each listed `i` of 32 or more (R81). -/
def FrameOperand.w1 : FrameOperand → Nat
  | .words _ w1 => w1
  | .leds is => is.foldl (fun acc i => if 32 ≤ i then acc ||| 2 ^ (i - 32) else acc) 0

def checkValue (v : Nat) : Option AsmError := if v ≤ 255 then none else some (.valueOutOfRange v)
def checkIndex (i : Nat) : Option AsmError := if i ≤ 255 then none else some (.indexOutOfRange i)
def checkState (b : Nat) : Option AsmError := if b ≤ 1 then none else some (.stateOutOfRange b)
def checkEnable (e : Nat) : Option AsmError := if e ≤ 1 then none else some (.enableOutOfRange e)
def checkFrame (f : FrameOperand) : Option AsmError :=
  if f.w0 ≤ 0xFFFFFFFF then
    if f.w1 ≤ 0xFFFFFFFF then none else some (.w1OutOfRange f.w1)
  else some (.w0OutOfRange f.w0)
def checkRawWord (w : Nat) : Option AsmError := if w < 2 ^ 72 then none else some (.rawWordOutOfRange w)

/-- The range check of a line (R79): the first error, or none. -/
def AsmLine.check : AsmLine → Option AsmError
  | .setBrightness v => checkValue v
  | .setLedBit i b => (checkIndex i).or (checkState b)
  | .replaceBitmask f => checkFrame f
  | .enableMultiplex f => checkFrame f
  | .directDrive i b => (checkIndex i).or (checkState b)
  | .setFastPwmMode e => checkEnable e
  | .word w => checkRawWord w
  | .ledSet i => checkIndex i
  | .ledClr i => checkIndex i
  | .directOn i => checkIndex i
  | .directOff i => checkIndex i
  | .tick => none
  | .getBrightness => none
  | .readBitmask => none
  | .clearAll => none
  | .setAll => none
  | .disableMultiplex => none
  | .ticks _ => none

/-- Whether a line passes every range check. -/
def AsmLine.wellFormed (l : AsmLine) : Bool := l.check.isNone

/-- The source line that writes an instruction (R79, R80). -/
def Instr.toAsm : Instr → AsmLine
  | .setBrightness v => .setBrightness v.toNat
  | .getBrightness => .getBrightness
  | .setLedBit i b => .setLedBit i.toNat b.toNat
  | .replaceBitmask w0 w1 => .replaceBitmask (.words w0.toNat w1.toNat)
  | .readBitmask => .readBitmask
  | .clearAll => .clearAll
  | .setAll => .setAll
  | .enableMultiplex w0 w1 => .enableMultiplex (.words w0.toNat w1.toNat)
  | .disableMultiplex => .disableMultiplex
  | .directDrive i b => .directDrive i.toNat b.toNat
  | .setFastPwmMode e => .setFastPwmMode e.toNat
  | .tick => .tick

/-- An instruction is well formed when the assembler accepts the line that writes it. -/
def Instr.wellFormed (i : Instr) : Bool := i.toAsm.wellFormed

end Sys2Proof
end

