-- ==== Sys2Proof/Decode.lean ====
section
/-! DEFINITION. Encodings (spec/30_encoding.md R71 to R78): the fields of a command word, the decoder, the encoder, the
opcode table, and the serial form. -/

namespace Sys2Proof

/-- What carries an instruction: a word on the command port, or the 1-bit tick port (R70, R84). -/
inductive Encoded where
  | command (C : CmdWord)
  | tickPort (bit : BitVec 1)
deriving DecidableEq, Repr

/-- Why bits carry no instruction. -/
inductive Rejection where
  /-- A reserved opcode (R75). The controller accepts such a word and does nothing (spec/43_mode_ops.md R164). -/
  | reservedOpcode (op : Byte)
  /-- `tick = 0`: no tick is requested (R84). -/
  | noTickRequest
  /-- The serial form of a command is exactly nine bytes (R78). Log 13. -/
  | notNineBytes (count : Nat)
deriving DecidableEq, Repr

/-- `op = C[71:64]` (R71). -/
def opcodeField (C : CmdWord) : Byte := C.extractLsb' 64 8
/-- `w1 = C[63:32]` (R71, R73). -/
def w1Field (C : CmdWord) : Word32 := C.extractLsb' 32 32
/-- `w0 = C[31:0]` (R71, R73). -/
def w0Field (C : CmdWord) : Word32 := C.extractLsb' 0 32
/-- `value = C[7:0]` (R73). -/
def valueField (C : CmdWord) : Byte := C.extractLsb' 0 8
/-- `index = C[7:0]` (R73). -/
def indexField (C : CmdWord) : Byte := C.extractLsb' 0 8
/-- `state = C[8]` (R73). -/
def stateField (C : CmdWord) : Bool := C.getLsbD 8
/-- `enable = C[0]` (R73). -/
def enableField (C : CmdWord) : Bool := C.getLsbD 0

/-- The decoder of the command port (R74, R76): total on all 72-bit words, the opcode byte alone selects. -/
def decodeCommand (C : CmdWord) : Except Rejection Instr :=
  match (opcodeField C).toNat with
  | 0x01 => .ok (.setBrightness (valueField C))
  | 0x02 => .ok .getBrightness
  | 0x03 => .ok (.setLedBit (indexField C) (stateField C))
  | 0x04 => .ok (.replaceBitmask (w0Field C) (w1Field C))
  | 0x05 => .ok .readBitmask
  | 0x06 => .ok .clearAll
  | 0x07 => .ok .setAll
  | 0x08 => .ok (.enableMultiplex (w0Field C) (w1Field C))
  | 0x09 => .ok .disableMultiplex
  | 0x0A => .ok (.directDrive (indexField C) (stateField C))
  | 0x0B => .ok (.setFastPwmMode (enableField C))
  | _ => .error (.reservedOpcode (opcodeField C))

/-- The decoder of the tick port (R84, format `T`). -/
def decodeTickPort (bit : BitVec 1) : Except Rejection Instr :=
  if bit = 1#1 then .ok .tick else .error .noTickRequest

/-- The decoder. -/
def decode : Encoded → Except Rejection Instr
  | .command C => decodeCommand C
  | .tickPort b => decodeTickPort b

/-- The nine bytes of the serial form as one word (R78): the opcode byte, word 0 and word 1, each least significant
byte first. -/
def commandOfBytes (bs : List Byte) : Option CmdWord :=
  match bs with
  | [op, a0, a1, a2, a3, b0, b1, b2, b3] => some (op ++ ((b3 ++ (b2 ++ (b1 ++ b0))) ++ (a3 ++ (a2 ++ (a1 ++ a0)))))
  | _ => none

/-- The decoder of the serial form (R78): total on any bytes. -/
def decodeBytes (bs : List Byte) : Except Rejection Instr :=
  match commandOfBytes bs with
  | some C => decodeCommand C
  | none => .error (.notNineBytes bs.length)

/-- The encoder's word: opcode byte above two operand words (R71). -/
def commandWord (op : Byte) (w1 w0 : Word32) : CmdWord := op ++ (w1 ++ w0)

/-- Operand word 0 of format `IS`: `index` in bits 7:0, `state` in bit 8, the rest 0 (R72, R79). -/
def indexStateWord (index : Byte) (state : Bool) : Word32 := 0#23 ++ (BitVec.ofBool state ++ index)

/-- The encoder (R71 to R74); ignored operand bits are 0 (R79). -/
def encode : Instr → Encoded
  | .setBrightness v => .command (commandWord 0x01 0 (v.setWidth 32))
  | .getBrightness => .command (commandWord 0x02 0 0)
  | .setLedBit i b => .command (commandWord 0x03 0 (indexStateWord i b))
  | .replaceBitmask w0 w1 => .command (commandWord 0x04 w1 w0)
  | .readBitmask => .command (commandWord 0x05 0 0)
  | .clearAll => .command (commandWord 0x06 0 0)
  | .setAll => .command (commandWord 0x07 0 0)
  | .enableMultiplex w0 w1 => .command (commandWord 0x08 w1 w0)
  | .disableMultiplex => .command (commandWord 0x09 0 0)
  | .directDrive i b => .command (commandWord 0x0A 0 (indexStateWord i b))
  | .setFastPwmMode e => .command (commandWord 0x0B 0 ((BitVec.ofBool e).setWidth 32))
  | .tick => .tickPort 1#1

/-- Byte `n` of a word, counted from its least significant byte. -/
def byteAt (n : Nat) {w : Nat} (v : BitVec w) : Byte := v.extractLsb' (8 * n) 8

/-- The eight bytes of a frame or of a response (R52, R78): word 0 first, each word least significant byte first. -/
def bytesOfFrame (F : Frame64) : List Byte := (List.range 8).map fun n => byteAt n F

/-- The serial form of a command word (R78). -/
def bytesOfCommand (C : CmdWord) : List Byte := opcodeField C :: bytesOfFrame (C.setWidth 64)

/-- The operand formats of R72. -/
inductive Format where
  | N | V | IS | E | F | T
deriving DecidableEq, Repr

/-- The format of each instruction (R72, R74). -/
def Instr.format : Instr → Format
  | .setBrightness _ => .V
  | .getBrightness => .N
  | .setLedBit _ _ => .IS
  | .replaceBitmask _ _ => .F
  | .readBitmask => .N
  | .clearAll => .N
  | .setAll => .N
  | .enableMultiplex _ _ => .F
  | .disableMultiplex => .N
  | .directDrive _ _ => .IS
  | .setFastPwmMode _ => .E
  | .tick => .T

/-- The operand bits a format reads (R72), as a mask over the 72-bit word. -/
def Format.fieldBits : Format → CmdWord
  | .N => 0
  | .V => 0xFF
  | .IS => 0x1FF
  | .E => 0x1
  | .F => 0xFFFFFFFFFFFFFFFF
  | .T => 0

/-- One row of the opcode map for the command port (R74). -/
structure TableRow where
  mnemonic : String
  format : Format
  pattern : CmdWord
  mask : CmdWord
deriving DecidableEq, Repr

/-- The eleven command rows of R74, in the spec's order. -/
def commandTable : List TableRow := [
  ⟨"SET_BRIGHTNESS", .V, 0x010000000000000000, 0xFF0000000000000000⟩,
  ⟨"GET_BRIGHTNESS", .N, 0x020000000000000000, 0xFF0000000000000000⟩,
  ⟨"SET_LED_BIT", .IS, 0x030000000000000000, 0xFF0000000000000000⟩,
  ⟨"REPLACE_BITMASK", .F, 0x040000000000000000, 0xFF0000000000000000⟩,
  ⟨"READ_BITMASK", .N, 0x050000000000000000, 0xFF0000000000000000⟩,
  ⟨"CLEAR_ALL", .N, 0x060000000000000000, 0xFF0000000000000000⟩,
  ⟨"SET_ALL", .N, 0x070000000000000000, 0xFF0000000000000000⟩,
  ⟨"ENABLE_MULTIPLEX", .F, 0x080000000000000000, 0xFF0000000000000000⟩,
  ⟨"DISABLE_MULTIPLEX", .N, 0x090000000000000000, 0xFF0000000000000000⟩,
  ⟨"DIRECT_DRIVE", .IS, 0x0A0000000000000000, 0xFF0000000000000000⟩,
  ⟨"SET_FAST_PWM_MODE", .E, 0x0B0000000000000000, 0xFF0000000000000000⟩]

/-- A row's command is selected by the words with `C & mask = match` (R74). -/
def TableRow.selects (r : TableRow) (C : CmdWord) : Bool := C &&& r.mask == r.pattern

/-- The port that carries a table row of `nbits` bits with bits `w`: the tick port for the 1-bit row (the table counts it
as one byte), the command port for a 72-bit row. Log 7. -/
def encodedOfTable (nbits w : Nat) : Encoded :=
  if nbits ≤ 8 then .tickPort (BitVec.ofNat 1 w) else .command (BitVec.ofNat 72 (w % 2 ^ nbits))

/-- The host's reading of a table row: what the decoder makes of it. -/
def decodeTableWord (nbits w : Nat) : Option Instr := (decode (encodedOfTable nbits w)).toOption

end Sys2Proof
end

