-- ==== Sys2Proof/Config.lean ====
section
/-! DEFINITION. The parameters of spec/00_scope.md R9: the periods and the probe bound (NLED, NPIN and BRIGHT_MAX are the
sizes of the types LedIndex, Pin and Byte of Word.lean), and the two OPEN parameters as constants without a body, so that
nothing can be proved that rests on their value. -/

namespace Sys2Proof.Config

/-- `P_NORMAL`: the PWM period in ticks in normal mode (R9). -/
def pNormal : Nat := 256

/-- `P_FAST`: the PWM period in ticks in fast-PWM mode (R9). -/
def pFast : Nat := 64

/-- `PROBES`: the bound on the selector's scan (R9). -/
def probes : Nat := 42

/-- `BRIGHT_DEFAULT`: the brightness after reset, OPEN, any 8-bit value (R9, spec/10_state.md R39). Log 2. -/
opaque brightDefault : Byte

/-- The OPEN parameter `PINMAP` (R9, spec/40_map_driver_selector.md R100), held as the permutation that turns the example
map of R102 into the board's map. A map meets P1 and P2 exactly when it is the example map after some permutation of the
LED indices (Laws/PinMap.lean proves it), so this constant ranges over the maps the spec admits and no others. Log 1. -/
opaque wiring : Equiv.Perm LedIndex

end Sys2Proof.Config
end

