-- ==== Sys2Proof/Machine/State.lean ====
section
/-! DEFINITION. The machine's state (spec/10_state.md R20), the clocks still to come, the reasons a step can stop, and
reset. -/

namespace Sys2Proof.Machine

/-- The state of one matrix pin (spec/10_state.md R32). -/
inductive PinState where
  /-- Tri-stated. -/
  | z
  /-- Driven high. -/
  | high
  /-- Driven low. -/
  | low
deriving DecidableEq, Repr

/-- The seven matrix pins, pin 0 first (R32). -/
abbrev Pins := Vector PinState 7

/-- The pin pair of one LED: anode and cathode (R30). -/
structure PinPair where
  anode : Pin
  cathode : Pin
deriving DecidableEq, Repr

/-- The input ports during one clock (spec/30_encoding.md R70). `cmd` counts only with `cmdValid`. -/
structure Clock where
  rst : Bool
  tick : Bool
  cmdValid : Bool
  cmd : CmdWord
deriving DecidableEq, Repr

/-- The whole state: the registers of spec/10_state.md R20, the response port of spec/30_encoding.md R70, and the
model's own queue of input clocks. -/
structure State where
  /-- `MASK`, the Enabled-LED Bitmask (R21). -/
  mask : Mask
  /-- `BRIGHT` (R23). -/
  bright : Byte
  /-- `CURSOR`, the Scan Cursor: six bits, 0..41 held (R24, R37 I1). -/
  cursor : BitVec 6
  /-- `CNT`, the PWM Counter (R26). -/
  cnt : Byte
  /-- `MUX_EN` (R27). -/
  muxEn : Bool
  /-- `FAST` (R28). -/
  fast : Bool
  /-- `DIRECT` (R29). -/
  direct : Bool
  /-- `SEL`, the Current Electrical Selection (R30). -/
  sel : Option PinPair
  /-- `LED_ON` (R33). -/
  ledOn : Bool
  /-- `PIN[0..6]` (R32). -/
  pins : Pins
  /-- The response port: `some v` is `rsp_valid = 1` with `rsp = v`, `none` is `rsp_valid = 0` (spec/30_encoding.md R70,
  R77). Log 5. -/
  rsp : Option Frame64
  /-- The MODEL's own field: the input ports of the clocks still to come, the next first. Log 3. -/
  inputs : List Clock
deriving DecidableEq, Repr

/-- No step faults: "The controller raises no synchronous exception. No operation can fault"
(spec/60_exceptions.md R180). The type has no constructor. Log 10. -/
inductive Fault where
deriving DecidableEq, Repr

/-- Why an instruction has no meaning. -/
inductive Refusal where
  /-- Raised by an arm of `exec` for an instruction without a meaning yet; no arm raises it. Safe. -/
  | notModelled (mnemonic : String)
deriving DecidableEq, Repr

/-- All seven pins tri-stated, "the safe default" (spec/10_state.md R39). -/
def allZ : Pins := Vector.replicate 7 .z

/-- The machine right after reset (spec/10_state.md R39, spec/70_reset_and_hazards.md R201): no response is on the port
(R200), and the queue of inputs, the model's own, is empty (log 3). -/
def State.reset : State where
  mask := 0
  bright := Config.brightDefault
  cursor := 0
  cnt := 0
  muxEn := false
  fast := false
  direct := false
  sel := none
  ledOn := false
  pins := allZ
  rsp := none
  inputs := []

end Sys2Proof.Machine
end

