-- ==== Sys2Proof/Machine/Operands.lean ====
section
/-! DEFINITION. Operand forms: LED indices, frames, and the views of the bitmask (spec/20_memory.md R51 to R54,
spec/30_encoding.md R73). -/

namespace Sys2Proof.Machine

/-- The LED an 8-bit index operand names; indices 42..255 name none (spec/20_memory.md R54, R63). -/
def ledOfIndex (index : Byte) : Option LedIndex :=
  if h : index.toNat < 42 then some ⟨index.toNat, h⟩ else none

/-- An in-range LED index as an 8-bit operand. -/
def indexOfLed (i : LedIndex) : Byte := BitVec.ofNat 8 i.val

/-- The bitmask a frame installs: `{w1[9:0], w0}`, bits 42..63 dropped (R53, spec/42_data_ops.md R143). -/
def maskOfFrame (w0 w1 : Word32) : Mask := w1.extractLsb' 0 10 ++ w0

/-- `MASK0 = MASK[31:0]` (spec/10_state.md R22). -/
def maskWord0 (m : Mask) : Word32 := m.extractLsb' 0 32

/-- `MASK1 = zext_32(MASK[41:32])` (R22). -/
def maskWord1 (m : Mask) : Word32 := (m.extractLsb' 32 10).setWidth 32

/-- The bitmask as a 64-bit frame `{MASK1, MASK0}` (spec/30_encoding.md R77). -/
def frameOfMask (m : Mask) : Frame64 := maskWord1 m ++ maskWord0 m

/-- `MASK[i]` (spec/00_scope.md R11): one cell of the store. -/
def maskBit (m : Mask) (i : LedIndex) : Bool := m.getLsbD i.val

/-- `MASK[i] <- b`: one cell written, 41 kept (spec/42_data_ops.md R142). -/
def writeMaskBit (m : Mask) (i : LedIndex) (b : Bool) : Mask :=
  if b then m ||| BitVec.twoPow 42 i.val else m &&& ~~~ BitVec.twoPow 42 i.val

/-- `2^42 - 1`, every LED enabled (spec/42_data_ops.md R146). -/
def maskAll : Mask := 0x3FFFFFFFFFF

/-- How many LEDs a bitmask enables. -/
def popCount (m : Mask) : Nat := (List.finRange 42).countP (maskBit m)

end Sys2Proof.Machine
end

