-- ==== Sys2Proof/Machine/Flags.lean ====
section
/-! DEFINITION. Flags, the mode, the slot state, and the register form of the selection (spec/10_state.md R30, R31, R34,
spec/41_scheduler_tick.md R126). The controller has no arithmetic condition codes (R34). -/

namespace Sys2Proof.Machine

/-- The three modes (spec/10_state.md R31). -/
inductive Mode where
  | idle | mux | direct
deriving DecidableEq, Repr

/-- The mode as a function of the two flags; `none` for the pair (1, 1), which has no mode (R31: unreachable). -/
def State.mode (s : State) : Option Mode :=
  match s.muxEn, s.direct with
  | false, false => some .idle
  | true, false => some .mux
  | false, true => some .direct
  | true, true => none

/-- The states of an LED time slot (spec/41_scheduler_tick.md R126). -/
inductive SlotState where
  | noneSelected | idleSelected | driving
deriving DecidableEq, Repr

/-- The slot state as a value of (`SEL`, `LED_ON`); `none` for (`none`, 1), which R126 gives no name (unreachable). -/
def State.slotState (s : State) : Option SlotState :=
  match s.sel, s.ledOn with
  | none, false => some .noneSelected
  | some _, false => some .idleSelected
  | some _, true => some .driving
  | none, true => none

/-- `SEL_VALID` (spec/10_state.md R30). -/
def State.selValid (s : State) : BitVec 1 := BitVec.ofBool s.sel.isSome

/-- `SEL_A`, 0 when the selection is `none` (R30). -/
def State.selA (s : State) : BitVec 3 :=
  match s.sel with
  | some p => BitVec.ofNat 3 p.anode.val
  | none => 0

/-- `SEL_C`, 0 when the selection is `none` (R30). -/
def State.selC (s : State) : BitVec 3 :=
  match s.sel with
  | some p => BitVec.ofNat 3 p.cathode.val
  | none => 0

end Sys2Proof.Machine
end

