-- ==== Sys2Proof/Machine/PinMap.lean ====
section
/-! DEFINITION. The Pin/Matrix Map and its lookup (spec/40_map_driver_selector.md R100 to R102). Operations that consult
the map take it as an argument; the meanings pass `pinMap`. -/

namespace Sys2Proof.Machine

/-- A map from LED indices to pin pairs. -/
abbrev Wiring := LedIndex → PinPair

/-- `PINMAP_EX`, the example map of R102: anode `i div 6`, cathode the `i mod 6`-th of the other pins. -/
def pinMapEx : Wiring := fun i =>
  { anode := ⟨i.val / 6, by omega⟩
    cathode := if i.val % 6 < i.val / 6 then ⟨i.val % 6, by omega⟩ else ⟨i.val % 6 + 1, by omega⟩ }

/-- `PINMAP`, the OPEN parameter (R100): any map that meets P1 and P2, none in particular. Log 1. -/
def pinMap : Wiring := fun i => pinMapEx (Config.wiring i)

/-- `LOOKUP(i)` (R101): the pair of an in-range index, `none` for 42..255. -/
def lookup (pm : Wiring) (index : Byte) : Option PinPair := (ledOfIndex index).map pm

end Sys2Proof.Machine
end

