-- ==== Sys2Proof/Machine/Ops.lean ====
section
/-! DEFINITION. The shared operations: register writes, the response, the pin driver, the LED selector, the period and the
gating predicate (spec/40_map_driver_selector.md R103 to R111). The controller takes no exception (spec/60_exceptions.md
R180, R187, R188), so there is no exception entry or return here. -/

namespace Sys2Proof.Machine

/-! ### Register writes, one per field of State (spec/00_scope.md R11: `<-` assigns). -/

/-- `MASK` `<-`. -/
def State.setMask (s : State) (v : Mask) : State := { s with mask := v }

/-- `BRIGHT` `<-`. -/
def State.setBright (s : State) (v : Byte) : State := { s with bright := v }

/-- `CURSOR` `<-`. -/
def State.setCursor (s : State) (v : BitVec 6) : State := { s with cursor := v }

/-- `CNT` `<-`. -/
def State.setCnt (s : State) (v : Byte) : State := { s with cnt := v }

/-- `MUX_EN` `<-`. -/
def State.setMuxEn (s : State) (v : Bool) : State := { s with muxEn := v }

/-- `FAST` `<-`. -/
def State.setFast (s : State) (v : Bool) : State := { s with fast := v }

/-- `DIRECT` `<-`. -/
def State.setDirect (s : State) (v : Bool) : State := { s with direct := v }

/-- `SEL` `<-`. -/
def State.setSel (s : State) (v : Option PinPair) : State := { s with sel := v }

/-- `LED_ON` `<-`. -/
def State.setLedOn (s : State) (v : Bool) : State := { s with ledOn := v }

/-- `PIN[0..6]` `<-`. -/
def State.setPins (s : State) (v : Pins) : State := { s with pins := v }

/-- the response port `<-`. -/
def State.setRsp (s : State) (v : Option Frame64) : State := { s with rsp := v }

/-- the queue of input clocks `<-`. -/
def State.setInputs (s : State) (v : List Clock) : State := { s with inputs := v }

/-- `rsp <- v` (spec/00_scope.md R11): the response word of the command being performed. -/
def State.respond (s : State) (v : Frame64) : State := s.setRsp (some v)

/-! ### The electrical driver (spec/40_map_driver_selector.md R103 to R107). -/

/-- `DRIVE_HIGH(p)` (R103). -/
def driveHigh (p : Pin) (ps : Pins) : Pins := ps.set p.val .high

/-- `DRIVE_LOW(p)` (R104). -/
def driveLow (p : Pin) (ps : Pins) : Pins := ps.set p.val .low

/-- `TRI_STATE(p)` (R105). -/
def triState (p : Pin) (ps : Pins) : Pins := ps.set p.val .z

/-- `ALL_OFF()` (R106): `TRI_STATE` of each of the seven pins. -/
def allOff (ps : Pins) : Pins := (List.finRange 7).foldl (fun acc p => triState p acc) ps

/-- `DRIVE_PAIR(a, c)` (R107): anode high, then cathode low. -/
def drivePair (p : PinPair) (ps : Pins) : Pins := driveLow p.cathode (driveHigh p.anode ps)

/-- `ALL_OFF(); LED_ON <- 0`, the pair of writes every caller of `ALL_OFF` makes (R106). -/
def State.release (s : State) : State := (s.setPins (allOff s.pins)).setLedOn false

/-- `DRIVE_PAIR(a, c); LED_ON <- 1` (spec/41_scheduler_tick.md R123). -/
def State.drive (s : State) (p : PinPair) : State := (s.setPins (drivePair p s.pins)).setLedOn true

/-! ### The LED selector (R108, R109). -/

/-- The index a probe tests: `(cur + k) mod 42` (R108, spec/41_scheduler_tick.md R130 c). -/
def probeIndex (cur : BitVec 6) (k : Nat) : LedIndex := ⟨(cur.toNat + k) % 42, Nat.mod_lt _ (by decide)⟩

/-- `FIND_NEXT(m, cur)` (R108): the first enabled LED among the 42 probes from `cur`. -/
def findNext (m : Mask) (cur : BitVec 6) : Option LedIndex :=
  ((List.range Config.probes).map (probeIndex cur)).find? (maskBit m)

/-- `(idx + 1) mod 42` (spec/41_scheduler_tick.md R130 d): the cursor past an LED. -/
def cursorPast (i : LedIndex) : BitVec 6 := BitVec.ofNat 6 ((i.val + 1) % 42)

/-- `PE(r)` (R109): the least set bit. -/
def priorityEncode (r : Mask) : Option Nat := (List.range 42).find? fun k => r.getLsbD k

/-- `FIND_NEXT` in its priority-encoder form (R109): rotate, encode, add the cursor. -/
def findNextRotated (m : Mask) (cur : BitVec 6) : Option LedIndex :=
  (priorityEncode (m.rotateRight cur.toNat)).map (probeIndex cur)

/-- `FIND_NEXT` without the rotate (R109): the bits at the cursor and above first, then the bits below. -/
def findNextSplit (m : Mask) (cur : BitVec 6) : Option LedIndex :=
  let below : Mask := BitVec.twoPow 42 cur.toNat - 1
  ((priorityEncode (m &&& ~~~ below)).or (priorityEncode (m &&& below))).map (probeIndex 0)

/-! ### Period and gating (R110, R111). -/

/-- `PERIOD()` (R110). -/
def State.period (s : State) : Nat := if s.fast then Config.pFast else Config.pNormal

/-- `WANT_ON()` (R111). -/
def State.wantOn (s : State) : Bool :=
  s.sel.isSome && decide (0 < s.bright.toNat) && decide (s.cnt.toNat < s.bright.toNat)

end Sys2Proof.Machine
end

