-- ==== Sys2Proof/Machine/DataOps.lean ====
section
/-! DEFINITION. The host commands on brightness and the bitmask (spec/42_data_ops.md R140 to R146). -/

namespace Sys2Proof.Machine

/-- `SET_BRIGHTNESS value` (R140). -/
def execSetBrightness (value : Byte) (s : State) : Host.Outcome State Fault Refusal :=
  .next ((s.setBright value).respond 0)

/-- `GET_BRIGHTNESS` (R141). -/
def execGetBrightness (s : State) : Host.Outcome State Fault Refusal :=
  .next (s.respond (s.bright.setWidth 64))

/-- `SET_LED_BIT index, state` (R142); an index of 42 or more changes nothing. -/
def execSetLedBit (index : Byte) (state : Bool) (s : State) : Host.Outcome State Fault Refusal :=
  match ledOfIndex index with
  | some i => .next ((s.setMask (writeMaskBit s.mask i state)).respond 0)
  | none => .next (s.respond 0)

/-- `REPLACE_BITMASK w0, w1` (R143). -/
def execReplaceBitmask (w0 w1 : Word32) (s : State) : Host.Outcome State Fault Refusal :=
  .next ((s.setMask (maskOfFrame w0 w1)).respond 0)

/-- `READ_BITMASK` (R144). -/
def execReadBitmask (s : State) : Host.Outcome State Fault Refusal :=
  .next (s.respond (frameOfMask s.mask))

/-- `CLEAR_ALL` (R145). -/
def execClearAll (s : State) : Host.Outcome State Fault Refusal :=
  .next ((s.setMask 0).respond 0)

/-- `SET_ALL` (R146). -/
def execSetAll (s : State) : Host.Outcome State Fault Refusal :=
  .next ((s.setMask maskAll).respond 0)

end Sys2Proof.Machine
end

