-- ==== Sys2Proof/Machine/ModeOps.lean ====
section
/-! DEFINITION. The host commands that change the mode, and the reserved opcodes (spec/43_mode_ops.md R160 to R164). -/

namespace Sys2Proof.Machine

/-- `CNT <- 0`, the counter reset of every mode-switch command (R166). It is not a wrap. -/
def State.restartPeriod (s : State) : State := s.setCnt 0

/-- `ENABLE_MULTIPLEX w0, w1` (R160). `SEL`, `LED_ON` and the pins are kept. -/
def execEnableMultiplex (w0 w1 : Word32) (s : State) : Host.Outcome State Fault Refusal :=
  .next (((((s.setMask (maskOfFrame w0 w1)).setMuxEn true).setCursor 0).setDirect false).restartPeriod.respond 0)

/-- `DISABLE_MULTIPLEX` (R161). -/
def execDisableMultiplex (s : State) : Host.Outcome State Fault Refusal :=
  .next ((((s.setMuxEn false).release.setSel none).setDirect false).restartPeriod.respond 0)

/-- The effect of `DIRECT_DRIVE` with an in-range index (R162): state 1 installs the LED's pair undriven and ends
multiplexing, state 0 clears the selection and keeps `MUX_EN`. -/
def directDriveIn (pm : Wiring) (index : Byte) (state : Bool) (s : State) : State :=
  if state then
    (((s.release.setSel (lookup pm index)).setDirect true).setMuxEn false).restartPeriod
  else
    ((s.release.setSel none).setDirect false).restartPeriod

/-- `DIRECT_DRIVE index, state` under a map (R162); an index of 42 or more changes nothing, for both states. -/
def directDriveWith (pm : Wiring) (index : Byte) (state : Bool) (s : State) : State :=
  match ledOfIndex index with
  | some _ => (directDriveIn pm index state s).respond 0
  | none => s.respond 0

/-- `DIRECT_DRIVE index, state` (R162). -/
def execDirectDrive (index : Byte) (state : Bool) (s : State) : Host.Outcome State Fault Refusal :=
  .next (directDriveWith pinMap index state s)

/-- `SET_FAST_PWM_MODE enable` (R163): `FAST` alone. -/
def execSetFastPwmMode (enable : Bool) (s : State) : Host.Outcome State Fault Refusal :=
  .next ((s.setFast enable).respond 0)

/-- A command word with a reserved opcode (R164): accepted, nothing written, response 0. -/
def execReserved (s : State) : Host.Outcome State Fault Refusal :=
  .next (s.respond 0)

end Sys2Proof.Machine
end

