-- ==== Sys2Proof/Machine/Tick.lean ====
section
/-! DEFINITION. The scheduler tick (spec/41_scheduler_tick.md R120 to R123). -/

namespace Sys2Proof.Machine

/-- `wrapped`: `CNT + 1 >= P`, the sum not truncated (R121). -/
def State.wraps (s : State) : Bool := decide (s.period ≤ s.cnt.toNat + 1)

/-- Step 1, the counter (R121). -/
def State.count (s : State) : State := s.setCnt (if s.wraps then 0 else s.cnt + 1)

/-- Step 2 at a wrap with `MUX_EN = 1`, the cursor advance (R122): the next enabled LED is selected undriven, or the
selection is cleared and the cursor kept. -/
def State.selectNext (pm : Wiring) (s : State) : State :=
  match findNext s.mask s.cursor with
  | some i => (s.release.setSel (lookup pm (indexOfLed i))).setCursor (cursorPast i)
  | none => s.setSel none

/-- Step 3, the brightness gating (R123): drive when wanted and not yet driven, release when not wanted and driven. -/
def State.gate (s : State) : State :=
  match s.wantOn, s.ledOn, s.sel with
  | true, false, some p => s.drive p
  | false, true, _ => s.release
  | _, _, _ => s

/-- `TICK` under a map: the three steps in order (R120). -/
def tickWith (pm : Wiring) (s : State) : State :=
  if s.wraps && s.muxEn then (s.count.selectNext pm).gate else s.count.gate

/-- `TICK` (R120). It produces no response and leaves the response port as it is (spec/60_exceptions.md R186). -/
def execTick (s : State) : Host.Outcome State Fault Refusal :=
  .next (tickWith pinMap s)

end Sys2Proof.Machine
end

