-- ==== Sys2Proof/Machine/Dispatch.lean ====
section
/-! DEFINITION. The meaning of each instruction, one arm per constructor. -/

namespace Sys2Proof.Machine

def exec (i : Instr) (s : State) : Host.Outcome State Fault Refusal :=
  match i with
  | .setBrightness value => Sys2Proof.Machine.execSetBrightness value s
  | .getBrightness => Sys2Proof.Machine.execGetBrightness s
  | .setLedBit index state => Sys2Proof.Machine.execSetLedBit index state s
  | .replaceBitmask w0 w1 => Sys2Proof.Machine.execReplaceBitmask w0 w1 s
  | .readBitmask => Sys2Proof.Machine.execReadBitmask s
  | .clearAll => Sys2Proof.Machine.execClearAll s
  | .setAll => Sys2Proof.Machine.execSetAll s
  | .enableMultiplex w0 w1 => Sys2Proof.Machine.execEnableMultiplex w0 w1 s
  | .disableMultiplex => Sys2Proof.Machine.execDisableMultiplex s
  | .directDrive index state => Sys2Proof.Machine.execDirectDrive index state s
  | .setFastPwmMode enable => Sys2Proof.Machine.execSetFastPwmMode enable s
  | .tick => Sys2Proof.Machine.execTick s

end Sys2Proof.Machine
end

