-- ==== Sys2Proof/Machine/Fetch.lean ====
section
/-! DEFINITION. How events reach the instructions: one clock's ports, the order of its events (spec/30_encoding.md R70,
R84, spec/60_exceptions.md R186, spec/70_reset_and_hazards.md R200), and the placing of a word where the next step takes
it. -/

namespace Sys2Proof.Machine

/-- `f` on the next state, if there is one. -/
def andThen (o : Host.Outcome State Fault Refusal) (f : State → Host.Outcome State Fault Refusal) :
    Host.Outcome State Fault Refusal :=
  match o with
  | .next s => f s
  | .fault r => .fault r
  | .refused r => .refused r

/-- An event of spec/00_scope.md R6. -/
inductive Event where
  | tick
  | cmd (C : CmdWord)
deriving DecidableEq, Repr

/-- The event that carries an encoded instruction; `tick = 0` is none (spec/30_encoding.md R84). -/
def Event.ofEncoded : Encoded → Option Event
  | .command C => some (.cmd C)
  | .tickPort b => if b = 1#1 then some .tick else none

/-- `CMD(C)`: the decoded command, or the no-op of a reserved opcode (spec/30_encoding.md R74, R75). -/
def runCommand (C : CmdWord) (s : State) : Host.Outcome State Fault Refusal :=
  match decodeCommand C with
  | .ok i => exec i s
  | .error _ => execReserved s

/-- One atomic event (spec/00_scope.md R6). -/
def runEvent (e : Event) (s : State) : Host.Outcome State Fault Refusal :=
  match e with
  | .tick => exec .tick s
  | .cmd C => runCommand C s

/-- Events one after another (spec/20_memory.md R58). -/
def runEvents : List Event → State → Host.Outcome State Fault Refusal
  | [], s => .next s
  | e :: es, s => andThen (runEvent e s) (runEvents es)

/-- The events of one clock without reset: the command first, then the tick (spec/60_exceptions.md R186). -/
def Clock.events (c : Clock) : List Event :=
  (if c.cmdValid then [.cmd c.cmd] else []) ++ (if c.tick then [.tick] else [])

/-- A clock begins: its ports are taken from the queue, and the response of the clock before is gone
(spec/30_encoding.md R70: `rsp_valid` is 1 in the clock after a command was accepted). -/
def State.beginClock (s : State) (rest : List Clock) : State := (s.setInputs rest).setRsp none

/-- One clock with the given ports. `rst = 1` overrides the command and the tick (spec/70_reset_and_hazards.md R200). -/
def runClock (c : Clock) (s : State) : Host.Outcome State Fault Refusal :=
  if c.rst then .next (State.reset.setInputs s.inputs) else runEvents c.events s

/-- All input ports 0. -/
def Clock.quiet : Clock := { rst := false, tick := false, cmdValid := false, cmd := 0 }

/-- The next clock: its ports from the head of the queue, or all 0 when the queue is empty (log 3). -/
def nextClock (s : State) : Host.Outcome State Fault Refusal :=
  match s.inputs with
  | [] => runClock Clock.quiet (s.beginClock [])
  | c :: rest => runClock c (s.beginClock rest)

/-- The clock that presents an encoded instruction and nothing else. -/
def Clock.ofEncoded : Encoded → Clock
  | .command C => { Clock.quiet with cmdValid := true, cmd := C }
  | .tickPort b => { Clock.quiet with tick := b == 1#1 }

/-- The next clock's ports replaced by those that present one row of the opcode table. Log 7. -/
def placeTableWord (s : State) (nbits w : Nat) : State :=
  s.setInputs (Clock.ofEncoded (encodedOfTable nbits w) :: s.inputs.drop 1)

end Sys2Proof.Machine
end

