-- ==== Sys2Proof/Machine/Step.lean ====
section
/-! DEFINITION. The step, one clock, and the host's way to place an instruction for it. -/

namespace Sys2Proof.Machine

/-- One clock of the controller (spec/70_reset_and_hazards.md R216). Log 4. -/
def step (s : State) : Host.Outcome State Fault Refusal := nextClock s

/-- `s` with a table row's word on the ports of the next clock. -/
def State.withFetchWord (s : State) (nbits w : Nat) : State := placeTableWord s nbits w

end Sys2Proof.Machine
end

