-- ==== Sys2Proof/Machine/Assembler.lean ====
section
/-! DEFINITION. The assembler of spec/30_encoding.md R79 and R81: what a source line stands for, and how a line's text is
read. The range checks are in WellFormed.lean. Lexical details the spec does not give: log 12. -/

namespace Sys2Proof.Machine

/-! ### What a line stands for -/

/-- The two words of a frame operand as operand words. -/
def frameEvent (mk : Word32 → Word32 → Instr) (f : FrameOperand) : List Encoded :=
  [encode (mk (BitVec.ofNat 32 f.w0) (BitVec.ofNat 32 f.w1))]

/-- The encoded events of a line whose operands are in range (R79; pseudo-instructions by their expansion, R81). -/
def expandLine : AsmLine → List Encoded
  | .tick => [encode .tick]
  | .setBrightness v => [encode (.setBrightness (BitVec.ofNat 8 v))]
  | .getBrightness => [encode .getBrightness]
  | .setLedBit i b => [encode (.setLedBit (BitVec.ofNat 8 i) (b == 1))]
  | .replaceBitmask f => frameEvent .replaceBitmask f
  | .readBitmask => [encode .readBitmask]
  | .clearAll => [encode .clearAll]
  | .setAll => [encode .setAll]
  | .enableMultiplex f => frameEvent .enableMultiplex f
  | .disableMultiplex => [encode .disableMultiplex]
  | .directDrive i b => [encode (.directDrive (BitVec.ofNat 8 i) (b == 1))]
  | .setFastPwmMode e => [encode (.setFastPwmMode (e == 1))]
  | .word w => [.command (BitVec.ofNat 72 w)]
  | .ticks n => List.replicate n (encode .tick)
  | .ledSet i => [encode (.setLedBit (BitVec.ofNat 8 i) true)]
  | .ledClr i => [encode (.setLedBit (BitVec.ofNat 8 i) false)]
  | .directOn i => [encode (.directDrive (BitVec.ofNat 8 i) true)]
  | .directOff i => [encode (.directDrive (BitVec.ofNat 8 i) false)]

/-- A line to its encoded events, or the assembly error of R79. -/
def assembleLine (l : AsmLine) : Except AsmError (List Encoded) :=
  match l.check with
  | none => .ok (expandLine l)
  | some e => .error e

/-- The clocks that present a line's events, one event a clock. -/
def clocksOfLine (l : AsmLine) : Except AsmError (List Clock) :=
  (assembleLine l).map fun es => es.map Clock.ofEncoded

/-! ### How a line's text is read -/

/-- The tokens of a line. -/
inductive Token where
  | word (letters : List Char)
  | comma
  | openBrace
  | closeBrace
deriving DecidableEq, Repr

/-- The opening brace, by its code point. -/
def openBraceChar : Char := Char.ofNat 123

/-- The closing brace, by its code point. -/
def closeBraceChar : Char := Char.ofNat 125

/-- A finished word, if any letters were read. -/
def flushWord (letters : List Char) (ts : List Token) : List Token :=
  if letters.isEmpty then ts else .word letters :: ts

/-- Tokens of the text that follows the letters already read; `;` starts a comment (R79). -/
def tokens (letters : List Char) : List Char → List Token
  | [] => flushWord letters []
  | c :: cs =>
    if c = ';' then flushWord letters []
    else if c = ' ' ∨ c = '\t' then flushWord letters (tokens [] cs)
    else if c = ',' then flushWord letters (.comma :: tokens [] cs)
    else if c = openBraceChar then flushWord letters (.openBrace :: tokens [] cs)
    else if c = closeBraceChar then flushWord letters (.closeBrace :: tokens [] cs)
    else tokens (letters ++ [c]) cs

/-- The value of a digit in a base up to 16. -/
def digitValue (base : Nat) (c : Char) : Option Nat :=
  let n := c.toNat
  let v := if 48 ≤ n ∧ n ≤ 57 then some (n - 48)
    else if 65 ≤ n ∧ n ≤ 70 then some (n - 55)
    else if 97 ≤ n ∧ n ≤ 102 then some (n - 87)
    else none
  v.filter fun d => d < base

/-- Digits, most significant first, continuing a number. -/
def digits (base acc : Nat) : List Char → Option Nat
  | [] => some acc
  | c :: cs => (digitValue base c).bind fun d => digits base (acc * base + d) cs

/-- A decimal or `0x` hexadecimal number (R79). -/
def parseNumber : List Char → Option Nat
  | '0' :: 'x' :: c :: cs => digits 16 0 (c :: cs)
  | c :: cs => digits 10 0 (c :: cs)
  | [] => none

/-- Numbers separated by commas (R79). -/
def parseNumbers : List Token → Except AsmError (List Nat)
  | [] => .ok []
  | [.word w] =>
    match parseNumber w with
    | some n => .ok [n]
    | none => .error .notANumber
  | .word w :: .comma :: t :: ts =>
    match parseNumber w, parseNumbers (t :: ts) with
    | some n, .ok ns => .ok (n :: ns)
    | none, _ => .error .notANumber
    | _, .error e => .error e
  | _ => .error .wrongOperands

/-- A frame operand: two numbers, or `FRAME` with LED numbers in braces (R79, R81). DESIGN CHOICE, log 12: the list may be
empty, which stands for the pair 0, 0; R81 shows only lists that are not. -/
def parseFrame (ts : List Token) : Except AsmError FrameOperand :=
  match ts with
  | .word ['F', 'R', 'A', 'M', 'E'] :: .openBrace :: rest =>
    match rest.getLast? with
    | some .closeBrace => (parseNumbers rest.dropLast).map .leds
    | _ => .error .wrongOperands
  | _ =>
    match parseNumbers ts with
    | .ok [w0, w1] => .ok (.words w0 w1)
    | .ok _ => .error .wrongOperands
    | .error e => .error e

/-- No operand. -/
def parseNone (l : AsmLine) (ts : List Token) : Except AsmError AsmLine :=
  if ts.isEmpty then .ok l else .error .wrongOperands

/-- One operand. -/
def parseOne (mk : Nat → AsmLine) (ts : List Token) : Except AsmError AsmLine :=
  match parseNumbers ts with
  | .ok [a] => .ok (mk a)
  | .ok _ => .error .wrongOperands
  | .error e => .error e

/-- Two operands. -/
def parseTwo (mk : Nat → Nat → AsmLine) (ts : List Token) : Except AsmError AsmLine :=
  match parseNumbers ts with
  | .ok [a, b] => .ok (mk a b)
  | .ok _ => .error .wrongOperands
  | .error e => .error e

/-- The line a mnemonic, pseudo-instruction or directive and its operand tokens make (R79, R81). -/
def parseStatement (mnemonic : String) (ts : List Token) : Except AsmError AsmLine :=
  if mnemonic = "TICK" then parseNone .tick ts
  else if mnemonic = "SET_BRIGHTNESS" then parseOne .setBrightness ts
  else if mnemonic = "GET_BRIGHTNESS" then parseNone .getBrightness ts
  else if mnemonic = "SET_LED_BIT" then parseTwo .setLedBit ts
  else if mnemonic = "REPLACE_BITMASK" then (parseFrame ts).map .replaceBitmask
  else if mnemonic = "READ_BITMASK" then parseNone .readBitmask ts
  else if mnemonic = "CLEAR_ALL" then parseNone .clearAll ts
  else if mnemonic = "SET_ALL" then parseNone .setAll ts
  else if mnemonic = "ENABLE_MULTIPLEX" then (parseFrame ts).map .enableMultiplex
  else if mnemonic = "DISABLE_MULTIPLEX" then parseNone .disableMultiplex ts
  else if mnemonic = "DIRECT_DRIVE" then parseTwo .directDrive ts
  else if mnemonic = "SET_FAST_PWM_MODE" then parseOne .setFastPwmMode ts
  else if mnemonic = ".word" then parseOne .word ts
  else if mnemonic = "TICKS" then parseOne .ticks ts
  else if mnemonic = "LED_SET" then parseOne .ledSet ts
  else if mnemonic = "LED_CLR" then parseOne .ledClr ts
  else if mnemonic = "DIRECT_ON" then parseOne .directOn ts
  else if mnemonic = "DIRECT_OFF" then parseOne .directOff ts
  else .error .unknownMnemonic

/-- The line a text holds; a blank or comment-only line holds none. -/
def parseLine (text : List Char) : Except AsmError (Option AsmLine) :=
  match tokens [] text with
  | [] => .ok none
  | .word m :: ts => (parseStatement (String.ofList m) ts).map some
  | _ => .error .unknownMnemonic

/-- A line's text to its encoded events (R79). -/
def assembleText (text : List Char) : Except AsmError (List Encoded) :=
  match parseLine text with
  | .ok none => .ok []
  | .ok (some l) => assembleLine l
  | .error e => .error e

end Sys2Proof.Machine
end

