-- ==== Sys2Proof/Machine/Ports.lean ====
section
/-! DEFINITION. The output ports and what an observer sees (spec/30_encoding.md R70, R77, R83, spec/00_scope.md R8). -/

namespace Sys2Proof.Machine

/-- `pin_oe[p]` (R83). -/
def PinState.outputEnable : PinState → Bool
  | .z => false
  | .high => true
  | .low => true

/-- `pin_out[p]` (R83). -/
def PinState.outputLevel : PinState → Bool
  | .z => false
  | .high => true
  | .low => false

/-- `pin_oe[6:0]` (R83). -/
def State.pinOe (s : State) : BitVec 7 := BitVec.ofFnLE fun p : Pin => s.pins[p].outputEnable

/-- `pin_out[6:0]` (R83). -/
def State.pinOut (s : State) : BitVec 7 := BitVec.ofFnLE fun p : Pin => s.pins[p].outputLevel

/-- `cmd_ready`: always 1 (R70). -/
def State.cmdReady (_ : State) : Bool := true

/-- `rsp_valid` (R70). -/
def State.rspValid (s : State) : Bool := s.rsp.isSome

/-- What leaves the controller: the pins, and the response where there is one (spec/00_scope.md R8). -/
structure Observation where
  pins : Pins
  rsp : Option Frame64
deriving DecidableEq, Repr

/-- The observation of a state (R8). -/
def State.observe (s : State) : Observation := { pins := s.pins, rsp := s.rsp }

/-- The serial form of the response, where there is one (R78). -/
def State.rspBytes (s : State) : Option (List Byte) := s.rsp.map bytesOfFrame

end Sys2Proof.Machine
end

