-- ==== Sys2Proof/Safety.lean ====
section
/-! DEFINITION. What counts as a good state (spec/10_state.md R37, invariants I1 to I8) and a safe display
(spec/40_map_driver_selector.md R112), and the terms in which claims speak of slots and sweeps. -/

namespace Sys2Proof.Machine

/-- The pins that show one pair: its anode high, its cathode low, the other five tri-stated (spec/10_state.md R37 I4). -/
def pairPins (p : PinPair) : Pins :=
  Vector.ofFn fun q => if q = p.cathode then .low else if q = p.anode then .high else .z

/-- The pins a selection and its driven flag call for (R37 I4). -/
def shownPins (sel : Option PinPair) (ledOn : Bool) : Pins :=
  match sel, ledOn with
  | some p, true => pairPins p
  | _, _ => allZ

/-- The invariants I1 to I8 of spec/10_state.md R37. -/
structure Inv (s : State) : Prop where
  /-- I1. -/
  cursor_in_range : s.cursor.toNat ≤ 41
  /-- I2. -/
  modes_exclusive : ¬ (s.muxEn = true ∧ s.direct = true)
  /-- I3. -/
  driven_selected : s.ledOn = true → s.sel ≠ none
  /-- I4. -/
  pins_follow : s.pins = shownPins s.sel s.ledOn
  /-- I5. -/
  top_bits_zero : ∀ k, 10 ≤ k → (maskWord1 s.mask).getLsbD k = false
  /-- I6. -/
  selection_mapped : ∀ p, s.sel = some p → p.anode ≠ p.cathode ∧ ∃ i, pinMap i = p
  /-- I7. -/
  direct_selected : s.direct = true → s.sel ≠ none ∧ s.muxEn = false
  /-- I8. -/
  idle_dark : s.mode = some .idle → s.sel = none ∧ s.ledOn = false ∧ s.pins = allZ

/-- "At most one pin pair should ever be simultaneously driven high/low at a time" (R112). -/
def AtMostOnePair (ps : Pins) : Prop :=
  ps = allZ ∨ ∃ p : PinPair, p.anode ≠ p.cathode ∧ ps = pairPins p

/-- An LED is driven when its anode pin is high and its cathode pin is low (spec/00_scope.md R14). -/
def LedDriven (ps : Pins) (i : LedIndex) : Prop :=
  ps[(pinMap i).anode] = .high ∧ ps[(pinMap i).cathode] = .low

/-- The mode-switch commands (spec/43_mode_ops.md R166). -/
def modeSwitch : Instr → Bool
  | .enableMultiplex _ _ => true
  | .disableMultiplex => true
  | .directDrive index _ => decide (index.toNat ≤ 41)
  | .setBrightness _ => false
  | .getBrightness => false
  | .setLedBit _ _ => false
  | .replaceBitmask _ _ => false
  | .readBitmask => false
  | .clearAll => false
  | .setAll => false
  | .setFastPwmMode _ => false
  | .tick => false

/-- `n` ticks, one after another. -/
def runTicks (n : Nat) (s : State) : Host.Outcome State Fault Refusal := runEvents (List.replicate n .tick) s

/-- The LEDs that `n` successive searches select from a cursor, each search starting past the LED before
(spec/41_scheduler_tick.md R122, R128). -/
def sweep (m : Mask) : Nat → BitVec 6 → List LedIndex
  | 0, _ => []
  | n + 1, cur =>
    match findNext m cur with
    | some i => i :: sweep m n (cursorPast i)
    | none => []

end Sys2Proof.Machine
end

