-- ==== Sys2Proof/Certificates/Slice0/Obligations.lean ====
section
/-! DEFINITION. The statements for the provers. Each docstring names the rule of spec/ a statement formalises; where a
clause rests on a decision of the spec (D<n> of spec/92_eei_decisions.md) or on an entry of the model's log, it says so. -/

open Sys2Proof Sys2Proof.Machine

/-! ### Reset -/

/-- Every register after reset, and the mode (spec/10_state.md R39, spec/70_reset_and_hazards.md R201). The zeros of
`CURSOR`, `CNT`, `FAST` and `DIRECT` are the spec's decision D21, `BRIGHT_DEFAULT` its open parameter D22 (log 2);
`rsp_valid = 0` after a clock of reset is R200 (D29). -/
def Obligations.ResetLeavesEveryRegisterAtItsSpecValue : Prop :=
  (∀ i : LedIndex, maskBit State.reset.mask i = false) ∧ State.reset.bright = Config.brightDefault ∧
  State.reset.cursor.toNat = 0 ∧ State.reset.cnt.toNat = 0 ∧ State.reset.muxEn = false ∧ State.reset.fast = false ∧
  State.reset.direct = false ∧ State.reset.sel = none ∧ State.reset.ledOn = false ∧
  (∀ p : Pin, State.reset.pins[p] = .z) ∧ State.reset.mode = some .idle ∧ State.reset.rspValid = false

/-- The reset state meets the invariants I1 to I8 (R37, R201). -/
def Obligations.ResetMeetsEveryInvariant : Prop := Inv State.reset

/-- A clock with `rst = 1` gives every register its reset value and performs neither the command nor the tick of that
clock (R200; D29). The queue of clocks to come, the model's own field (log 3), is past that clock. -/
def Obligations.ResetClockOverridesCommandAndTick : Prop :=
  ∀ (s : State) (c : Clock) (rest : List Clock), s.inputs = c :: rest → c.rst = true →
    step s = .next { State.reset with inputs := rest }

/-! ### Encoding -/

/-- Words of the spec's worked encodings (spec/30_encoding.md R85), at least one of each command format `V`, `IS`, `F`, `N`
and `E`, one with ignored operand bits set and one with a reserved opcode, decode as the table says; and the tick port at 1
is `TICK`, format `T` (R84). -/
def Obligations.WorkedEncodingsDecode : Prop :=
  decode (.command 0x010000000000000080) = .ok (.setBrightness 128) ∧
  decode (.command 0x030000000000000029) = .ok (.setLedBit 41 false) ∧
  decode (.command 0x080000020080000001) = .ok (.enableMultiplex 0x80000001 0x00000200) ∧
  decode (.command 0x090000000000000000) = .ok .disableMultiplex ∧
  decode (.command 0x0A0000000000000129) = .ok (.directDrive 41 true) ∧
  decode (.command 0x0B0000000000000001) = .ok (.setFastPwmMode true) ∧
  decode (.command 0x03FFFFFFFFFFFFFE05) = .ok (.setLedBit 5 false) ∧
  decode (.command 0xFF0000000000000000) = .error (.reservedOpcode 0xFF) ∧
  decode (.tickPort 1) = .ok .tick

/-- Decoding what the encoder writes gives the instruction back, for every instruction and every operand value (R71 to
R74, R84; encodings are the spec's decisions D1 to D3, D6). -/
def Obligations.DecodeReadsBackEveryEncoding : Prop :=
  ∀ i : Instr, decode (encode i) = .ok i

/-- Encoding what was decoded gives the word back with exactly the ignored operand bits cleared (R72, R73, R79). -/
def Obligations.EncodeOfDecodedClearsIgnoredBits : Prop :=
  ∀ (C : CmdWord) (i : Instr), decodeCommand C = .ok i →
    encode i = .command (C &&& (0xFF0000000000000000 ||| i.format.fieldBits))

/-- The opcode map (R74, R76; D2): a row of the table selects a word exactly when the decoder reads that row's command in
that row's format from it; no two rows select one word; a word that no row selects is a reserved opcode. -/
def Obligations.DecoderFollowsTheOpcodeMap : Prop :=
  ∀ C : CmdWord,
    (∀ r ∈ commandTable, r.selects C = true ↔
      ∃ i, decodeCommand C = .ok i ∧ i.mnemonic = r.mnemonic ∧ i.format = r.format) ∧
    (commandTable.filter fun r => r.selects C).length ≤ 1 ∧
    ((∀ r ∈ commandTable, r.selects C = false) ↔ decodeCommand C = .error (.reservedOpcode (C.extractLsb' 64 8)))

/-- Operand bits the format does not name are ignored (R72, R73; D3): words with one opcode that agree on the bits the
format names decode alike. -/
def Obligations.IgnoredOperandBitsDoNotMatter : Prop :=
  ∀ (C D : CmdWord) (i : Instr), decodeCommand C = .ok i → D.extractLsb' 64 8 = C.extractLsb' 64 8 →
    D &&& i.format.fieldBits = C &&& i.format.fieldBits → decodeCommand D = .ok i

/-- A reserved opcode, `0x00` or `0x0C` to `0xFF`: accepted, nothing written, response 0 (R75, spec/43_mode_ops.md R164;
D4). -/
def Obligations.ReservedOpcodeWritesNothing : Prop :=
  ∀ (C : CmdWord) (s : State), ((C.extractLsb' 64 8).toNat = 0 ∨ 0x0C ≤ (C.extractLsb' 64 8).toNat) →
    decodeCommand C = .error (.reservedOpcode (C.extractLsb' 64 8)) ∧ runCommand C s = .next { s with rsp := some 0 }

/-- The serial form (R78; D27): nine bytes, the opcode, then word 0 and word 1 least significant byte first; and reading
them back gives the word. -/
def Obligations.SerialFormReadsBack : Prop :=
  ∀ C : CmdWord,
    bytesOfCommand C = [C.extractLsb' 64 8, C.extractLsb' 0 8, C.extractLsb' 8 8, C.extractLsb' 16 8, C.extractLsb' 24 8,
      C.extractLsb' 32 8, C.extractLsb' 40 8, C.extractLsb' 48 8, C.extractLsb' 56 8] ∧
    decodeBytes (bytesOfCommand C) = decodeCommand C

/-- A bitmask serialised as eight bytes (spec/20_memory.md R52): LED `i` is bit `i mod 8` of byte `i div 8`, and every other
bit is 0. -/
def Obligations.SerialisedFramePutsEachLedInItsByte : Prop :=
  ∀ m : Mask, (bytesOfFrame (frameOfMask m)).length = 8 ∧
    ∀ n < 64, ∃ b, (bytesOfFrame (frameOfMask m))[n / 8]? = some b ∧
      b.getLsbD (n % 8) = if h' : n < 42 then maskBit m ⟨n, h'⟩ else false

/-- The assembler's line for an instruction stands for that instruction's encoding (R79, R80; D28). -/
def Obligations.AssemblerWritesEveryInstruction : Prop :=
  ∀ i : Instr, assembleLine i.toAsm = .ok [encode i]

/-- The pseudo-instructions and their expansions (R81; D28): `FRAME` sets exactly the listed bits of its operand pair. And
the range errors (R79; D28), one for every operand. An empty `FRAME` list, one with repeats, which error is named when two
operands of a line are out of range, and the range of `.word`, are the model's choice (log 12). -/
def Obligations.PseudoInstructionsExpand : Prop :=
  (∀ n, assembleLine (.ticks n) = .ok (List.replicate n (encode .tick))) ∧
  (∀ i, assembleLine (.ledSet i) = assembleLine (.setLedBit i 1)) ∧
  (∀ i, assembleLine (.ledClr i) = assembleLine (.setLedBit i 0)) ∧
  (∀ i, assembleLine (.directOn i) = assembleLine (.directDrive i 1)) ∧
  (∀ i, assembleLine (.directOff i) = assembleLine (.directDrive i 0)) ∧
  (∀ is : List Nat, (∀ i ∈ is, i < 64) → ∃ w0 w1 : Word32,
    assembleLine (.replaceBitmask (.leds is)) = .ok [encode (.replaceBitmask w0 w1)] ∧
    assembleLine (.enableMultiplex (.leds is)) = .ok [encode (.enableMultiplex w0 w1)] ∧
    ∀ n < 64, ((w1 ++ w0 : Frame64).getLsbD n = true ↔ n ∈ is)) ∧
  (∀ w < 2 ^ 72, assembleLine (.word w) = .ok [.command (BitVec.ofNat 72 w)]) ∧
  (∀ v, 255 < v → assembleLine (.setBrightness v) = .error (.valueOutOfRange v)) ∧
  (∀ i b, 255 < i → assembleLine (.setLedBit i b) = .error (.indexOutOfRange i) ∧
    assembleLine (.directDrive i b) = .error (.indexOutOfRange i)) ∧
  (∀ i b, i ≤ 255 → 1 < b → assembleLine (.setLedBit i b) = .error (.stateOutOfRange b) ∧
    assembleLine (.directDrive i b) = .error (.stateOutOfRange b)) ∧
  (∀ e, 1 < e → assembleLine (.setFastPwmMode e) = .error (.enableOutOfRange e)) ∧
  (∀ w0 w1, 0xFFFFFFFF < w0 →
    assembleLine (.replaceBitmask (.words w0 w1)) = .error (.w0OutOfRange w0) ∧
    assembleLine (.enableMultiplex (.words w0 w1)) = .error (.w0OutOfRange w0)) ∧
  (∀ w0 w1, w0 ≤ 0xFFFFFFFF → 0xFFFFFFFF < w1 →
    assembleLine (.replaceBitmask (.words w0 w1)) = .error (.w1OutOfRange w1) ∧
    assembleLine (.enableMultiplex (.words w0 w1)) = .error (.w1OutOfRange w1)) ∧
  (∀ is : List Nat, (∃ i ∈ is, 64 ≤ i) → ∃ w1 > 0xFFFFFFFF,
    assembleLine (.replaceBitmask (.leds is)) = .error (.w1OutOfRange w1) ∧
    assembleLine (.enableMultiplex (.leds is)) = .error (.w1OutOfRange w1)) ∧
  (∀ w, 2 ^ 72 ≤ w → assembleLine (.word w) = .error (.rawWordOutOfRange w))

/-! ### The bitmask and its views -/

/-- The layout of a frame, in both directions (R51): what a frame installs and what a read-back shows. -/
def Obligations.FrameBitIsItsLed : Prop :=
  (∀ (w0 w1 : Word32) (i : LedIndex),
    maskBit (maskOfFrame w0 w1) i = if i.val < 32 then w0.getLsbD i.val else w1.getLsbD (i.val - 32)) ∧
  (∀ (m : Mask) (i : LedIndex), maskBit m i = (frameOfMask m).getLsbD i.val ∧
    maskBit m i = if i.val < 32 then (maskWord0 m).getLsbD i.val else (maskWord1 m).getLsbD (i.val - 32)) ∧
  (∀ (m : Mask) (k : Nat), 10 ≤ k → (maskWord1 m).getLsbD k = false)

/-- The register form of the selection (spec/10_state.md R30; D11): both pin fields are 0 when `SEL_VALID = 0`, and equal
register contents are equal selections. -/
def Obligations.SelectionRegisterFormIsCanonical : Prop :=
  ∀ s t : State, (s.selValid = 0 → s.selA = 0 ∧ s.selC = 0) ∧ (s.selValid = 1 ↔ s.sel ≠ none) ∧
    (s.selValid = t.selValid ∧ s.selA = t.selA ∧ s.selC = t.selC ↔ s.sel = t.sel)

/-! ### The data commands -/

/-- `SET_BRIGHTNESS value` (spec/42_data_ops.md R140): `BRIGHT` takes the value, response 0, nothing else is written, the
pins among it; and the next `TICK` gates with the new value. -/
def Obligations.SetBrightnessWritesBrightAndActsAtNextTick : Prop :=
  (∀ C : CmdWord, C.extractLsb' 64 8 = 0x01 → decodeCommand C = .ok (.setBrightness (C.extractLsb' 0 8))) ∧
  ∀ (value : Byte) (s : State),
    exec (.setBrightness value) s = .next { s with bright := value, rsp := some 0 } ∧
    ∃ u, exec .tick { s with bright := value, rsp := some 0 } = .next u ∧
      (u.ledOn = true ↔ u.sel ≠ none ∧ u.cnt.toNat < value.toNat)

/-- `GET_BRIGHTNESS` (R141): the response is `BRIGHT` zero-extended, nothing is written (D30). -/
def Obligations.GetBrightnessAnswersBright : Prop :=
  (∀ C : CmdWord, C.extractLsb' 64 8 = 0x02 → decodeCommand C = .ok .getBrightness) ∧
  ∀ s : State, ∃ r : Frame64, exec .getBrightness s = .next { s with rsp := some r } ∧ r.toNat = s.bright.toNat

/-- `SET_LED_BIT index, state` (R142): for an index up to 41 exactly that cell is set to `state` and the 41 others are
kept; for 42 to 255 (no cell has that index) the bitmask is unchanged. Response 0, nothing else is written. -/
def Obligations.SetLedBitWritesThatCellOnly : Prop :=
  (∀ C : CmdWord, C.extractLsb' 64 8 = 0x03 → decodeCommand C = .ok (.setLedBit (C.extractLsb' 0 8) (C.getLsbD 8))) ∧
  ∀ (index : Byte) (state : Bool) (s : State), ∃ m,
    exec (.setLedBit index state) s = .next { s with mask := m, rsp := some 0 } ∧
    ∀ j : LedIndex, maskBit m j = if j.val = index.toNat then state else maskBit s.mask j

/-- `REPLACE_BITMASK w0, w1` (R143): all 42 cells from the frame, `w1[31:10]` dropped, response 0, nothing else. -/
def Obligations.ReplaceBitmaskInstallsTheFrame : Prop :=
  (∀ C : CmdWord, C.extractLsb' 64 8 = 0x04 →
    decodeCommand C = .ok (.replaceBitmask (C.extractLsb' 0 32) (C.extractLsb' 32 32))) ∧
  ∀ (w0 w1 : Word32) (s : State), ∃ m,
    exec (.replaceBitmask w0 w1) s = .next { s with mask := m, rsp := some 0 } ∧
    ∀ j : LedIndex, maskBit m j = if j.val < 32 then w0.getLsbD j.val else w1.getLsbD (j.val - 32)

/-- `READ_BITMASK` (R144): the response holds the 42 cells, bits 63:42 zero; nothing is written (D30). -/
def Obligations.ReadBitmaskAnswersEveryCell : Prop :=
  (∀ C : CmdWord, C.extractLsb' 64 8 = 0x05 → decodeCommand C = .ok .readBitmask) ∧
  ∀ s : State, ∃ r : Frame64, exec .readBitmask s = .next { s with rsp := some r } ∧
    (∀ j : LedIndex, r.getLsbD j.val = maskBit s.mask j) ∧ ∀ k, 42 ≤ k → r.getLsbD k = false

/-- `CLEAR_ALL` (R145): every cell 0, response 0, nothing else: the LED selected now is not released; the next search,
from any cursor, finds nothing. -/
def Obligations.ClearAllEmptiesTheBitmask : Prop :=
  (∀ C : CmdWord, C.extractLsb' 64 8 = 0x06 → decodeCommand C = .ok .clearAll) ∧
  ∀ s : State, ∃ m, exec .clearAll s = .next { s with mask := m, rsp := some 0 } ∧
    (∀ j : LedIndex, maskBit m j = false) ∧ popCount m = 0 ∧ ∀ cur : BitVec 6, findNext m cur = none

/-- `SET_ALL` (R146): every cell 1, 42 of them, response 0, nothing else. -/
def Obligations.SetAllFillsTheBitmask : Prop :=
  (∀ C : CmdWord, C.extractLsb' 64 8 = 0x07 → decodeCommand C = .ok .setAll) ∧
  ∀ s : State, ∃ m, exec .setAll s = .next { s with mask := m, rsp := some 0 } ∧
    (∀ j : LedIndex, maskBit m j = true) ∧ popCount m = 42

/-- The no-op law (spec/20_memory.md R63): an LED index of 42 or more leaves all state unchanged, answers 0, drives no pin,
and no pin map is consulted: under every map the lookup is `none`. -/
def Obligations.OutOfRangeIndexIsANoOp : Prop :=
  ∀ (index : Byte) (state : Bool) (s : State), 42 ≤ index.toNat →
    exec (.setLedBit index state) s = .next { s with rsp := some 0 } ∧
    exec (.directDrive index state) s = .next { s with rsp := some 0 } ∧
    ∀ pm : Wiring, lookup pm index = none

/-- Round trip of a frame (R147, an inference of the spec; D7): reading after replacing answers the frame with bits 63:42
cleared. -/
def Obligations.ReadAfterReplaceAnswersTheMaskedFrame : Prop :=
  ∀ (w0 w1 : Word32) (s : State), ∃ t, andThen (exec (.replaceBitmask w0 w1) s) (exec .readBitmask) = .next t ∧
    t.rsp = some ((w1 ++ w0 : Frame64) &&& 0x3FFFFFFFFFF)

/-- `SET_LED_BIT` with different in-range indices commutes, and repeated with one state does no more than once (R147, an
inference of the spec). -/
def Obligations.SetLedBitCommutesAndIsIdempotent : Prop :=
  ∀ (i j : Byte) (b d : Bool) (s : State),
    (i ≠ j → andThen (exec (.setLedBit i b) s) (exec (.setLedBit j d)) =
      andThen (exec (.setLedBit j d) s) (exec (.setLedBit i b))) ∧
    andThen (exec (.setLedBit i b) s) (exec (.setLedBit i b)) = exec (.setLedBit i b) s

/-! ### The mode commands -/

/-- `ENABLE_MULTIPLEX w0, w1` (spec/43_mode_ops.md R160): the frame installed, `MUX_EN` 1, `CURSOR` 0, and by the spec's
decisions D15, D16 also `DIRECT` 0 and `CNT` 0 with `SEL`, `LED_ON` and the pins kept. -/
def Obligations.EnableMultiplexInstallsAndRestarts : Prop :=
  (∀ C : CmdWord, C.extractLsb' 64 8 = 0x08 →
    decodeCommand C = .ok (.enableMultiplex (C.extractLsb' 0 32) (C.extractLsb' 32 32))) ∧
  ∀ (w0 w1 : Word32) (s : State), ∃ m,
    exec (.enableMultiplex w0 w1) s =
      .next { s with mask := m, muxEn := true, cursor := 0, direct := false, cnt := 0, rsp := some 0 } ∧
    ∀ j : LedIndex, maskBit m j = if j.val < 32 then w0.getLsbD j.val else w1.getLsbD (j.val - 32)

/-- `DISABLE_MULTIPLEX` (R161): multiplexing off, the selection cleared, every pin tri-stated in the command itself, and
by the spec's decisions D15, D17 `DIRECT` 0 and `CNT` 0; everything else is kept. -/
def Obligations.DisableMultiplexBlanksAtOnce : Prop :=
  (∀ C : CmdWord, C.extractLsb' 64 8 = 0x09 → decodeCommand C = .ok .disableMultiplex) ∧
  ∀ s : State, ∃ ps : Pins,
    exec .disableMultiplex s = .next { s with
      muxEn := false, sel := none, ledOn := false, pins := ps, direct := false, cnt := 0, rsp := some 0 } ∧
    ∀ p : Pin, ps[p] = .z

/-- `DIRECT_DRIVE index, state` with an in-range index (R162; D15, D18, D19): the pins blanked; state 1 selects the LED's
pair undriven, sets `DIRECT` and clears `MUX_EN`; state 0 clears the selection and keeps `MUX_EN`; `CNT` 0; everything else
is kept. -/
def Obligations.DirectDriveSelectsOrClears : Prop :=
  (∀ C : CmdWord, C.extractLsb' 64 8 = 0x0A → decodeCommand C = .ok (.directDrive (C.extractLsb' 0 8) (C.getLsbD 8))) ∧
  ∀ (index : Byte) (h : index.toNat < 42) (s : State), ∃ ps : Pins, (∀ p : Pin, ps[p] = .z) ∧
    exec (.directDrive index true) s = .next { s with
      sel := some (pinMap ⟨index.toNat, h⟩), ledOn := false, pins := ps, direct := true, muxEn := false, cnt := 0,
      rsp := some 0 } ∧
    exec (.directDrive index false) s = .next { s with
      sel := none, ledOn := false, pins := ps, direct := false, cnt := 0, rsp := some 0 }

/-- `SET_FAST_PWM_MODE enable` (R163; D20): `FAST` alone, response 0; not the counter, the selection or the pins. -/
def Obligations.SetFastPwmModeWritesFastOnly : Prop :=
  (∀ C : CmdWord, C.extractLsb' 64 8 = 0x0B → decodeCommand C = .ok (.setFastPwmMode (C.getLsbD 0))) ∧
  ∀ (enable : Bool) (s : State), exec (.setFastPwmMode enable) s = .next { s with fast := enable, rsp := some 0 }

/-- The table of mode transitions (R165, an inference of the spec; D15 to D19), its mode entries, its selection entries
and its counter reset, from every state that meets the invariants. -/
def Obligations.ModeTransitionTable : Prop :=
  ∀ (s : State) (m : Mode) (w0 w1 : Word32) (i : LedIndex), Inv s → s.mode = some m →
    (∃ t, exec (.enableMultiplex w0 w1) s = .next t ∧ t.mode = some .mux ∧ t.cnt = 0 ∧ t.sel = s.sel ∧ t.pins = s.pins ∧
      (m = .idle → t.sel = none)) ∧
    (∃ t, exec .disableMultiplex s = .next t ∧ t.mode = some .idle ∧ t.cnt = 0 ∧ t.sel = none ∧ t.pins = allZ) ∧
    (∃ t, exec (.directDrive (indexOfLed i) true) s = .next t ∧ t.mode = some .direct ∧ t.cnt = 0 ∧
      t.sel = some (pinMap i) ∧ t.ledOn = false ∧ t.pins = allZ) ∧
    (∃ t, exec (.directDrive (indexOfLed i) false) s = .next t ∧
      t.mode = some (match m with | .idle => .idle | .mux => .mux | .direct => .idle) ∧ t.cnt = 0 ∧ t.sel = none ∧
      t.pins = allZ)

/-- Only the mode-switch commands change the mode (R165, R166; D19): no data command, no `SET_FAST_PWM_MODE`, no `TICK`, no
`DIRECT_DRIVE` with an index of 42 or more. -/
def Obligations.OnlyModeSwitchCommandsChangeTheMode : Prop :=
  ∀ (i : Instr) (s t : State), exec i s = .next t → t.mode ≠ s.mode → modeSwitch i = true

/-- A directly driven LED is first lit by the next `TICK`, and only if `BRIGHT` is 2 or more (R162, R166, R208; D18). -/
def Obligations.DirectDriveLightsAtTheNextTick : Prop :=
  ∀ (i : LedIndex) (s : State), ∃ t, andThen (exec (.directDrive (indexOfLed i) true) s) (exec .tick) = .next t ∧
    t.cnt.toNat = 1 ∧ t.sel = some (pinMap i) ∧ (t.ledOn = true ↔ 2 ≤ s.bright.toNat) ∧
    (2 ≤ s.bright.toNat → ∀ j : LedIndex, LedDriven t.pins j ↔ j = i) ∧
    (s.bright.toNat < 2 → ∀ p : Pin, t.pins[p] = .z)

/-! ### The tick -/

/-- `TICK` (spec/41_scheduler_tick.md R120) from every state, with its frame. The wrap test `CNT + 1 >= P` is the spec's
decision D12 (R121), the search from the cursor itself, the cursor past the LED found and the cursor kept when none is
found are its D13, and the release of the pins when a newly found LED is selected is its D14 (R122; log 6). In words: the
counter counts and wraps at the period; at a wrap with `MUX_EN = 1` the next enabled LED is selected undriven and passed
by the cursor, or the selection is cleared and the cursor kept; then the LED is driven exactly when a selection exists and
`CNT < BRIGHT`: an undriven pair is driven over the pins as they are, a driven one that is no longer wanted is released,
else the pins are left. -/
def Obligations.TickCountsSelectsAndGates : Prop :=
  ∀ s : State, ∃ t, exec .tick s = .next t ∧
    t.mask = s.mask ∧ t.bright = s.bright ∧ t.muxEn = s.muxEn ∧ t.fast = s.fast ∧ t.direct = s.direct ∧
    t.inputs = s.inputs ∧ t.rsp = s.rsp ∧
    (let wrapped : Prop := (if s.fast then 64 else 256) ≤ s.cnt.toNat + 1
     t.cnt.toNat = (if wrapped then 0 else s.cnt.toNat + 1) ∧
     (t.ledOn = true ↔ t.sel ≠ none ∧ 0 < s.bright.toNat ∧ t.cnt.toNat < s.bright.toNat) ∧
     ∃ (reselected : Bool) (pins0 : Pins) (led0 : Bool),
       (reselected = true ↔ wrapped ∧ s.muxEn = true ∧ findNext s.mask s.cursor ≠ none) ∧
       (∀ i, reselected = true → findNext s.mask s.cursor = some i →
         t.sel = some (pinMap i) ∧ t.cursor.toNat = (i.val + 1) % 42) ∧
       (wrapped ∧ s.muxEn = true ∧ findNext s.mask s.cursor = none → t.sel = none ∧ t.cursor = s.cursor) ∧
       (¬ (wrapped ∧ s.muxEn = true) → t.sel = s.sel ∧ t.cursor = s.cursor) ∧
       pins0 = (if reselected then allZ else s.pins) ∧ led0 = (if reselected then false else s.ledOn) ∧
       (∀ p, t.ledOn = true → led0 = false → t.sel = some p → t.pins = drivePair p pins0) ∧
       (t.ledOn = false → led0 = true → ∀ q : Pin, t.pins[q] = .z) ∧
       (t.ledOn = led0 → t.pins = pins0))

/-- A tick leaves pins that show exactly the selection it leaves, and the driven flag and pins it found play no part in
what it leaves (R124, an inference of the spec; D14; it asks invariant I4 of the state before). -/
def Obligations.TickIgnoresOldPinsAndDrivenFlag : Prop :=
  ∀ (s : State) (on : Bool) (ps : Pins), s.pins = shownPins s.sel s.ledOn → ps = shownPins s.sel on →
    exec .tick { s with ledOn := on, pins := ps } = exec .tick s ∧
    ∀ t, exec .tick s = .next t → t.pins = shownPins t.sel t.ledOn

/-- The slot states (R126): after a `TICK` the slot is DRIVING exactly when the gating wants it on, else IDLE_SELECTED or
NONE_SELECTED as a selection exists or not; and in each the pins are the ones R126's table gives. -/
def Obligations.SlotStateAfterTick : Prop :=
  ∀ s : State, Inv s → ∃ t, exec .tick s = .next t ∧
    t.slotState = some (if t.wantOn then .driving else if t.sel = none then .noneSelected else .idleSelected) ∧
    (t.slotState = some .noneSelected → t.sel = none ∧ t.ledOn = false ∧ t.pins = allZ) ∧
    (t.slotState = some .idleSelected → t.sel ≠ none ∧ t.ledOn = false ∧ t.pins = allZ) ∧
    (t.slotState = some .driving → ∃ p, t.sel = some p ∧ t.ledOn = true ∧ t.pins = pairPins p)

/-- After every `TICK` the counter is below the period, and only `SET_FAST_PWM_MODE 1` can take it out of there
(spec/10_state.md R26, R129; the wrap test is the spec's decision D12). -/
def Obligations.CounterStaysBelowThePeriod : Prop :=
  (∀ s t : State, exec .tick s = .next t → t.cnt.toNat < t.period) ∧
  (∀ (i : Instr) (s t : State), exec i s = .next t → s.cnt.toNat < s.period → i ≠ .setFastPwmMode true →
    t.cnt.toNat < t.period)

/-- Duty cycle (R127, an inference of the spec): in a slot, whose first tick left `CNT = 0` with the gating done, the `n`-th
later tick leaves `CNT = n`, the selection as it was, and the LED driven exactly when `n < BRIGHT`; so it is driven on the
first `min(BRIGHT, P)` of the slot's `P` ticks. -/
def Obligations.SlotIsLitForItsFirstBrightTicks : Prop :=
  ∀ (s : State) (n : Nat), Inv s → s.cnt = 0 → s.ledOn = s.wantOn → n < s.period →
    ∃ t, runTicks n s = .next t ∧ t = { s with cnt := BitVec.ofNat 8 n, ledOn := t.ledOn, pins := t.pins } ∧
      (t.ledOn = true ↔ s.sel ≠ none ∧ n < min s.bright.toNat s.period) ∧ t.pins = shownPins s.sel t.ledOn

/-- After `ENABLE_MULTIPLEX` the first selection happens at the `P`-th tick, and it is the lowest LED of the frame; an empty
frame selects nothing; the ticks before keep the old selection (R160 corner cases 3 and 4, R129; D13, D15, D16). -/
def Obligations.EnableMultiplexSelectsOnePeriodLater : Prop :=
  ∀ (s : State) (w0 w1 : Word32),
    (∀ n < s.period, ∃ t, andThen (exec (.enableMultiplex w0 w1) s) (runTicks n) = .next t ∧
      t.cnt.toNat = n ∧ t.sel = s.sel ∧ t.cursor = 0) ∧
    ∃ t, andThen (exec (.enableMultiplex w0 w1) s) (runTicks s.period) = .next t ∧ t.cnt = 0 ∧
      (maskOfFrame w0 w1 = 0 → t.sel = none) ∧
      ∀ i : LedIndex, maskBit (maskOfFrame w0 w1) i = true → (∀ j < i, maskBit (maskOfFrame w0 w1) j = false) →
        t.sel = some (pinMap i)

/-- In mode IDLE ticks only count: nothing is ever lit (spec/70_reset_and_hazards.md R202, R125, inferences of the spec). -/
def Obligations.IdleTicksOnlyCount : Prop :=
  ∀ (s : State) (n : Nat), Inv s → s.mode = some .idle → s.cnt.toNat < s.period →
    runTicks n s = .next { s with cnt := BitVec.ofNat 8 ((s.cnt.toNat + n) % s.period) }

/-! ### The selector -/

/-- `FIND_NEXT` (spec/40_map_driver_selector.md R108; the start at the cursor itself is D13): nothing exactly when no LED
is enabled; else the enabled LED at the least cyclic distance from the cursor, the cursor's own first. -/
def Obligations.FindNextIsTheNearestEnabledLed : Prop :=
  ∀ (m : Mask) (cur : BitVec 6), cur.toNat ≤ 41 →
    (findNext m cur = none ↔ ∀ j : LedIndex, maskBit m j = false) ∧
    ∀ i : LedIndex, findNext m cur = some i ↔ maskBit m i = true ∧
      ∀ j : LedIndex, maskBit m j = true → (i.val + 42 - cur.toNat) % 42 ≤ (j.val + 42 - cur.toNat) % 42

/-- The three forms of the selector agree (R109, an inference of the spec): probes, rotate and priority encoder, and high
part before low part. -/
def Obligations.PriorityEncoderFormsAgree : Prop :=
  ∀ (m : Mask) (cur : BitVec 6), cur.toNat ≤ 41 →
    findNextRotated m cur = findNext m cur ∧ findNextSplit m cur = findNext m cur

/-- Round robin (R128, an inference of the spec; D13): with `k` LEDs enabled, `k` successive searches, each from past the
LED before, select every enabled LED exactly once and no other. -/
def Obligations.SweepVisitsEveryEnabledLedOnce : Prop :=
  ∀ (m : Mask) (cur : BitVec 6), cur.toNat ≤ 41 →
    (sweep m (popCount m) cur).Nodup ∧ ∀ i : LedIndex, i ∈ sweep m (popCount m) cur ↔ maskBit m i = true

/-! ### Pin map, driver and pins -/

/-- The pin map meets P1 and P2 and so is a bijection onto the 42 ordered pairs of distinct pins (R100; log 1). -/
def Obligations.PinMapIsABijectionOntoDistinctPairs : Prop :=
  (∀ i, (pinMap i).anode ≠ (pinMap i).cathode) ∧ (∀ i j, i ≠ j → pinMap i ≠ pinMap j) ∧
  ∀ p : PinPair, p.anode ≠ p.cathode → ∃ i, pinMap i = p ∧ ∀ j, pinMap j = p → j = i

/-- `LOOKUP` (R101; the sentinel `none` is D10): defined for 0..41, `none` for 42..255, under every map. -/
def Obligations.LookupIsTheMapInRange : Prop :=
  ∀ (pm : Wiring) (index : Byte), (∀ h : index.toNat < 42, lookup pm index = some (pm ⟨index.toNat, h⟩)) ∧
    (42 ≤ index.toNat → lookup pm index = none)

/-- The driver primitives (R103 to R107): one pin each, all seven, or a pair, every other pin as it was. -/
def Obligations.DriverPrimitivesWriteTheirPins : Prop :=
  ∀ (ps : Pins) (p q : Pin),
    (driveHigh p ps)[q] = (if q = p then .high else ps[q]) ∧ (driveLow p ps)[q] = (if q = p then .low else ps[q]) ∧
    (triState p ps)[q] = (if q = p then .z else ps[q]) ∧ (allOff ps)[q] = .z ∧
    ∀ pair : PinPair, pair.anode ≠ pair.cathode → (drivePair pair ps)[pair.anode] = .high ∧
      (drivePair pair ps)[pair.cathode] = .low ∧
      (q ≠ pair.anode → q ≠ pair.cathode → (drivePair pair ps)[q] = ps[q])

/-- The pin port (spec/30_encoding.md R83; D8): `pin_oe` and `pin_out` per pin, and never output level without enable. -/
def Obligations.PinPortEncodesEachPin : Prop :=
  ∀ (s : State) (p : Pin),
    (s.pins[p] = .z ↔ s.pinOe.getLsbD p.val = false ∧ s.pinOut.getLsbD p.val = false) ∧
    (s.pins[p] = .high ↔ s.pinOe.getLsbD p.val = true ∧ s.pinOut.getLsbD p.val = true) ∧
    (s.pins[p] = .low ↔ s.pinOe.getLsbD p.val = true ∧ s.pinOut.getLsbD p.val = false) ∧
    ¬ (s.pinOe.getLsbD p.val = false ∧ s.pinOut.getLsbD p.val = true)

/-- With a driven selection exactly one LED is driven, the one whose pair is selected; with none driven, no LED is (R112,
an inference of the spec). -/
def Obligations.ExactlyTheSelectedLedIsDriven : Prop :=
  ∀ (s : State), Inv s →
    (∀ i : LedIndex, s.ledOn = true → (LedDriven s.pins i ↔ s.sel = some (pinMap i))) ∧
    (s.ledOn = true → ∃ i : LedIndex, LedDriven s.pins i ∧ ∀ j, LedDriven s.pins j → j = i) ∧
    (s.ledOn = false → ∀ i : LedIndex, ¬ LedDriven s.pins i)

/-! ### The whole machine -/

/-- Every step and every instruction answers a next state: no operation faults, waits or is refused (spec/00_scope.md R7,
spec/60_exceptions.md R180). -/
def Obligations.EveryStepCompletes : Prop :=
  (∀ s : State, ∃ t, step s = .next t) ∧ ∀ (i : Instr) (s : State), ∃ t, exec i s = .next t

/-- A clock that presents one instruction, a command word or a tick, runs exactly that instruction on the state with the
clock's ports taken and the last response gone (spec/30_encoding.md R70, R84; log 3, log 4). -/
def Obligations.StepRunsTheDecodedInstruction : Prop :=
  ∀ (s : State) (c : Clock) (rest : List Clock) (i : Instr), s.inputs = c :: rest → c.rst = false →
    (c.cmdValid = true ∧ c.tick = false ∧ decode (.command c.cmd) = .ok i ∨
      c.cmdValid = false ∧ decode (.tickPort (BitVec.ofBool c.tick)) = .ok i) →
    step s = exec i { s with inputs := rest, rsp := none }

/-- A command and a tick in one clock: the command first, the `TICK` second, and the response is the command's
(spec/60_exceptions.md R186; D23). -/
def Obligations.CommandBeforeTickInOneClock : Prop :=
  ∀ (s : State) (c : Clock) (rest : List Clock) (i : Instr), s.inputs = c :: rest → c.rst = false → c.cmdValid = true →
    c.tick = true → decodeCommand c.cmd = .ok i →
    ∃ t u, exec i { s with inputs := rest, rsp := none } = .next t ∧ exec .tick t = .next u ∧ step s = .next u ∧
      u.rsp = t.rsp

/-- A clock with a reserved opcode changes nothing but the response, and the tick of that clock is still performed (R164,
R186; D4, D23); a clock with no command, no tick and no reset, and the end of the queue (log 3), change nothing. -/
def Obligations.StepWithoutAnInstruction : Prop :=
  ∀ (s : State) (c : Clock) (rest : List Clock),
    (s.inputs = c :: rest → c.rst = false → c.cmdValid = false → c.tick = false →
      step s = .next { s with inputs := rest, rsp := none }) ∧
    (s.inputs = [] → step s = .next { s with rsp := none }) ∧
    (∀ op, s.inputs = c :: rest → c.rst = false → c.cmdValid = true → decodeCommand c.cmd = .error (.reservedOpcode op) →
      step s = if c.tick then exec .tick { s with inputs := rest, rsp := some 0 }
        else .next { s with inputs := rest, rsp := some 0 })

/-- `rsp_valid` is 1 after exactly the clocks that accepted a command, and `cmd_ready` is always 1 (spec/30_encoding.md
R70; D29). -/
def Obligations.ResponseFollowsExactlyACommand : Prop :=
  ∀ (s t : State) (c : Clock) (rest : List Clock), s.inputs = c :: rest → step s = .next t →
    t.rspValid = (c.cmdValid && !c.rst) ∧ s.cmdReady = true

/-- Who writes what (spec/10_state.md R38; D13, D15 to D20, D30): a register that an instruction changed is one the
instruction may write. -/
def Obligations.OnlyItsWritersChangeARegister : Prop :=
  ∀ (i : Instr) (s t : State), exec i s = .next t →
    (t.mask ≠ s.mask → i.mnemonic ∈ ["SET_LED_BIT", "REPLACE_BITMASK", "CLEAR_ALL", "SET_ALL", "ENABLE_MULTIPLEX"]) ∧
    (t.bright ≠ s.bright → i.mnemonic = "SET_BRIGHTNESS") ∧
    (t.cursor ≠ s.cursor → i.mnemonic = "ENABLE_MULTIPLEX" ∨
      i = .tick ∧ s.wraps = true ∧ s.muxEn = true ∧ findNext s.mask s.cursor ≠ none) ∧
    (t.cnt ≠ s.cnt → i = .tick ∨ modeSwitch i = true) ∧
    (t.muxEn ≠ s.muxEn → i.mnemonic ∈ ["ENABLE_MULTIPLEX", "DISABLE_MULTIPLEX"] ∨
      ∃ index : Byte, index.toNat ≤ 41 ∧ i = .directDrive index true) ∧
    (t.fast ≠ s.fast → i.mnemonic = "SET_FAST_PWM_MODE") ∧
    (t.direct ≠ s.direct → modeSwitch i = true) ∧
    (t.sel ≠ s.sel → i = .tick ∧ s.wraps = true ∧ s.muxEn = true ∨
      modeSwitch i = true ∧ i.mnemonic ∈ ["DISABLE_MULTIPLEX", "DIRECT_DRIVE"]) ∧
    (t.ledOn ≠ s.ledOn ∨ t.pins ≠ s.pins → i = .tick ∨
      modeSwitch i = true ∧ i.mnemonic ∈ ["DISABLE_MULTIPLEX", "DIRECT_DRIVE"]) ∧
    t.inputs = s.inputs ∧ (i = .tick → t.rsp = s.rsp)

/-- No host command drives a pin (R190; D18 for `DIRECT_DRIVE`): after any of the eleven commands each pin is as it was or
tri-stated. -/
def Obligations.NoHostCommandDrivesAPin : Prop :=
  ∀ (i : Instr) (s t : State) (p : Pin), i ≠ .tick → exec i s = .next t → t.pins[p] = s.pins[p] ∨ t.pins[p] = .z

/-- Every step keeps the invariants I1 to I8 (spec/10_state.md R37, an inference of the spec; D13, D14, D16 to D19), from
every state that meets them, whatever the clock presents. -/
def Obligations.StepKeepsTheInvariants : Prop :=
  ∀ s t : State, Inv s → step s = .next t → Inv t

/-- From every state that meets the invariants, every number of clocks with every input completes, keeps the invariants,
and never has more than one pin pair driven (R37, spec/40_map_driver_selector.md R112; D13, D14, D16 to D19). -/
def Obligations.EveryRunIsSafe : Prop :=
  ∀ (k : Nat) (s : State), Inv s →
    ∃ t : State, Host.Core.run Sys2Proof.core k s = .next t ∧ Inv t ∧ AtMostOnePair t.pins

/-- `DIRECT` is bookkeeping (R29, an inference of the spec): runs that differ in it alone, under the same inputs, show the
same pins and responses. -/
def Obligations.DirectFlagIsNeverObserved : Prop :=
  ∀ (k : Nat) (s : State) (d : Bool), ∃ t u : State,
    Host.Core.run Sys2Proof.core k s = .next t ∧ Host.Core.run Sys2Proof.core k { s with direct := d } = .next u ∧
    u.observe = t.observe

/-- The reset values of `CURSOR` and `CNT` are never observed (R39, an inference of the spec): whatever they were, every
sequence of clocks shows the same pins and responses. -/
def Obligations.ResetCursorAndCounterAreNeverObserved : Prop :=
  ∀ (k : Nat) (cs : List Clock) (cur : BitVec 6) (n : Byte), ∃ t u : State,
    Host.Core.run Sys2Proof.core k { State.reset with inputs := cs } = .next t ∧
    Host.Core.run Sys2Proof.core k { State.reset with inputs := cs, cursor := cur, cnt := n } = .next u ∧
    u.observe = t.observe
end

