-- ==== Sys2Proof/Laws/Assembler.lean ====
section
/-! SUPPORT. What the range checks and the `FRAME` operand of the assembler can do (spec/30_encoding.md R79, R81). -/

namespace Sys2Proof.Machine

/-- A fold that sets one bit per listed number: the bits it started with, and those the list sets. -/
theorem testBit_foldl_or (P : Nat → Prop) [DecidablePred P] (f : Nat → Nat) (is : List Nat) (acc k : Nat) :
    (is.foldl (fun a i => if P i then a ||| 2 ^ f i else a) acc).testBit k = true ↔
      acc.testBit k = true ∨ ∃ i ∈ is, P i ∧ f i = k := by
  induction is generalizing acc with
  | nil => simp
  | cons i is ih =>
    rw [List.foldl_cons, ih]
    by_cases h : P i <;> simp [h, Nat.testBit_or, Nat.testBit_two_pow, or_assoc]

/-- Word 0 of a `FRAME` has exactly the listed bits below 32. -/
theorem testBit_leds_w0 (is : List Nat) (k : Nat) :
    (FrameOperand.leds is).w0.testBit k = true ↔ k < 32 ∧ k ∈ is := by
  refine (testBit_foldl_or (· < 32) id is 0 k).trans ?_
  simp
  tauto

/-- Word 1 of a `FRAME` has exactly the bits `i - 32` of the listed `i` of 32 or more. -/
theorem testBit_leds_w1 (is : List Nat) (k : Nat) : (FrameOperand.leds is).w1.testBit k = true ↔ k + 32 ∈ is := by
  refine (testBit_foldl_or (32 ≤ ·) (· - 32) is 0 k).trans ?_
  simp only [Nat.zero_testBit, Bool.false_eq_true, false_or]
  constructor
  · rintro ⟨i, hi, h, rfl⟩
    rwa [Nat.sub_add_cancel h]
  · intro h
    exact ⟨k + 32, h, by omega, by omega⟩

/-- Word 0 of a `FRAME` always fits its field. -/
theorem leds_w0_lt (is : List Nat) : (FrameOperand.leds is).w0 < 2 ^ 32 := by
  apply Nat.lt_pow_two_of_testBit
  intro k hk
  rw [Bool.eq_false_iff, ne_eq, testBit_leds_w0]
  omega

/-- Word 1 of a `FRAME` fits its field exactly when every listed number is below 64. -/
theorem leds_w1_lt_iff (is : List Nat) : (FrameOperand.leds is).w1 < 2 ^ 32 ↔ ∀ i ∈ is, i < 64 := by
  constructor
  · intro h i hi
    by_contra hc
    have hb : (FrameOperand.leds is).w1.testBit (i - 32) = true :=
      (testBit_leds_w1 is _).mpr (by rwa [Nat.sub_add_cancel (by omega)])
    have hle := Nat.ge_two_pow_of_testBit hb
    have := Nat.pow_le_pow_right (show 0 < 2 by decide) (show 32 ≤ i - 32 by omega)
    omega
  · intro h
    apply Nat.lt_pow_two_of_testBit
    intro k hk
    rw [Bool.eq_false_iff, ne_eq, testBit_leds_w1]
    intro hm
    have := h _ hm
    omega

/-- The frame check: the first word above its field, or none. -/
theorem checkFrame_cases (f : FrameOperand) :
    (f.w0 < 2 ^ 32 ∧ f.w1 < 2 ^ 32 ∧ checkFrame f = none) ∨
    (f.w0 < 2 ^ 32 ∧ 2 ^ 32 ≤ f.w1 ∧ checkFrame f = some (.w1OutOfRange f.w1)) ∨
    (2 ^ 32 ≤ f.w0 ∧ checkFrame f = some (.w0OutOfRange f.w0)) := by
  unfold checkFrame
  split
  · split
    · exact .inl ⟨by omega, by omega, rfl⟩
    · exact .inr (.inl ⟨by omega, by omega, rfl⟩)
  · exact .inr (.inr ⟨by omega, rfl⟩)

end Sys2Proof.Machine
end

