-- ==== Sys2Proof/Laws/Decode.lean ====
section
/-! SUPPORT. What the decoder of the command port can answer (spec/30_encoding.md R74, R75). -/

namespace Sys2Proof

/-- Every word has one of the eleven opcodes, and decodes to that command with its fields, or a reserved one. -/
theorem decodeCommand_cases (C : CmdWord) :
    (opcodeField C = 1 ∧ decodeCommand C = .ok (.setBrightness (valueField C))) ∨
    (opcodeField C = 2 ∧ decodeCommand C = .ok .getBrightness) ∨
    (opcodeField C = 3 ∧ decodeCommand C = .ok (.setLedBit (indexField C) (stateField C))) ∨
    (opcodeField C = 4 ∧ decodeCommand C = .ok (.replaceBitmask (w0Field C) (w1Field C))) ∨
    (opcodeField C = 5 ∧ decodeCommand C = .ok .readBitmask) ∨
    (opcodeField C = 6 ∧ decodeCommand C = .ok .clearAll) ∨
    (opcodeField C = 7 ∧ decodeCommand C = .ok .setAll) ∨
    (opcodeField C = 8 ∧ decodeCommand C = .ok (.enableMultiplex (w0Field C) (w1Field C))) ∨
    (opcodeField C = 9 ∧ decodeCommand C = .ok .disableMultiplex) ∨
    (opcodeField C = 10 ∧ decodeCommand C = .ok (.directDrive (indexField C) (stateField C))) ∨
    (opcodeField C = 11 ∧ decodeCommand C = .ok (.setFastPwmMode (enableField C))) ∨
    ((opcodeField C = 0 ∨ 12 ≤ (opcodeField C).toNat) ∧ decodeCommand C = .error (.reservedOpcode (opcodeField C))) := by
  have key : ∀ n < 12, (opcodeField C).toNat = n → opcodeField C = BitVec.ofNat 8 n := by
    intro n hn h
    apply BitVec.eq_of_toNat_eq
    simp [h]
    omega
  by_cases h : (opcodeField C).toNat < 12
  · generalize hn : (opcodeField C).toNat = n at h
    have hop := key n h hn
    interval_cases n <;> simp [decodeCommand, hop]
  · have h' := Nat.not_lt.mp h
    refine .inr <| .inr <| .inr <| .inr <| .inr <| .inr <| .inr <| .inr <| .inr <| .inr <| .inr ⟨.inr h', ?_⟩
    unfold decodeCommand
    split <;> first | omega | rfl

end Sys2Proof
end

