-- ==== Sys2Proof/Laws/PinMap.lean ====
section
/-! SUPPORT. The pin map: the premises P1 and P2 of spec/40_map_driver_selector.md R100, and that holding `PINMAP` as a
permutation of the example map leaves no admitted map out. -/

namespace Sys2Proof.Machine

/-- The premises of R100 on a map: P1, anode and cathode differ; P2, no two LEDs share a pair. -/
structure Wiring.Valid (pm : Wiring) : Prop where
  anode_ne_cathode : ∀ i, (pm i).anode ≠ (pm i).cathode
  injective : Function.Injective pm

/-- The LED the example map gives a pair (for a pair of distinct pins). -/
def ledOfPairEx (p : PinPair) : LedIndex :=
  Fin.ofNat 42 (6 * p.anode.val + if p.cathode.val < p.anode.val then p.cathode.val else p.cathode.val - 1)

theorem ledOfPairEx_pinMapEx : ∀ i, ledOfPairEx (pinMapEx i) = i := by decide

theorem pinMapEx_valid : Wiring.Valid pinMapEx where
  anode_ne_cathode := by decide
  injective := Function.LeftInverse.injective ledOfPairEx_pinMapEx

theorem pinMapEx_ledOfPairEx (p : PinPair) (h : p.anode ≠ p.cathode) : pinMapEx (ledOfPairEx p) = p := by
  obtain ⟨a, c⟩ := p
  have key : ∀ a c : Pin, a ≠ c → pinMapEx (ledOfPairEx ⟨a, c⟩) = ⟨a, c⟩ := by decide
  exact key a c h

/-- Every map that meets P1 and P2 is the example map after a permutation of the LED indices. -/
theorem valid_is_permuted_example (pm : Wiring) (h : pm.Valid) :
    ∃ σ : Equiv.Perm LedIndex, pm = fun i => pinMapEx (σ i) := by
  have back : ∀ i, pinMapEx (ledOfPairEx (pm i)) = pm i := fun i =>
    pinMapEx_ledOfPairEx _ (h.anode_ne_cathode i)
  have inj : Function.Injective fun i => ledOfPairEx (pm i) := by
    intro i j hij
    apply h.injective
    rw [← back i, ← back j]
    exact congrArg pinMapEx hij
  refine ⟨Equiv.ofBijective _ (Finite.injective_iff_bijective.mp inj), ?_⟩
  funext i
  exact (back i).symm

/-- And every permutation gives a map that meets them. -/
theorem permuted_example_valid (σ : Equiv.Perm LedIndex) : Wiring.Valid fun i => pinMapEx (σ i) where
  anode_ne_cathode i := pinMapEx_valid.anode_ne_cathode (σ i)
  injective _ _ hij := σ.injective (pinMapEx_valid.injective hij)

end Sys2Proof.Machine
end

