-- ==== Sys2Proof/Laws/State.lean ====
section
/-! SUPPORT. One lemma per field per register write, so that no proof unfolds a record update. -/

namespace Sys2Proof.Machine

variable (s : State)

@[simp] theorem State.setMask_mask (v : Mask) : (s.setMask v).mask = v := rfl
@[simp] theorem State.setMask_bright (v : Mask) : (s.setMask v).bright = s.bright := rfl
@[simp] theorem State.setMask_cursor (v : Mask) : (s.setMask v).cursor = s.cursor := rfl
@[simp] theorem State.setMask_cnt (v : Mask) : (s.setMask v).cnt = s.cnt := rfl
@[simp] theorem State.setMask_muxEn (v : Mask) : (s.setMask v).muxEn = s.muxEn := rfl
@[simp] theorem State.setMask_fast (v : Mask) : (s.setMask v).fast = s.fast := rfl
@[simp] theorem State.setMask_direct (v : Mask) : (s.setMask v).direct = s.direct := rfl
@[simp] theorem State.setMask_sel (v : Mask) : (s.setMask v).sel = s.sel := rfl
@[simp] theorem State.setMask_ledOn (v : Mask) : (s.setMask v).ledOn = s.ledOn := rfl
@[simp] theorem State.setMask_pins (v : Mask) : (s.setMask v).pins = s.pins := rfl
@[simp] theorem State.setMask_rsp (v : Mask) : (s.setMask v).rsp = s.rsp := rfl
@[simp] theorem State.setMask_inputs (v : Mask) : (s.setMask v).inputs = s.inputs := rfl

@[simp] theorem State.setBright_mask (v : Byte) : (s.setBright v).mask = s.mask := rfl
@[simp] theorem State.setBright_bright (v : Byte) : (s.setBright v).bright = v := rfl
@[simp] theorem State.setBright_cursor (v : Byte) : (s.setBright v).cursor = s.cursor := rfl
@[simp] theorem State.setBright_cnt (v : Byte) : (s.setBright v).cnt = s.cnt := rfl
@[simp] theorem State.setBright_muxEn (v : Byte) : (s.setBright v).muxEn = s.muxEn := rfl
@[simp] theorem State.setBright_fast (v : Byte) : (s.setBright v).fast = s.fast := rfl
@[simp] theorem State.setBright_direct (v : Byte) : (s.setBright v).direct = s.direct := rfl
@[simp] theorem State.setBright_sel (v : Byte) : (s.setBright v).sel = s.sel := rfl
@[simp] theorem State.setBright_ledOn (v : Byte) : (s.setBright v).ledOn = s.ledOn := rfl
@[simp] theorem State.setBright_pins (v : Byte) : (s.setBright v).pins = s.pins := rfl
@[simp] theorem State.setBright_rsp (v : Byte) : (s.setBright v).rsp = s.rsp := rfl
@[simp] theorem State.setBright_inputs (v : Byte) : (s.setBright v).inputs = s.inputs := rfl

@[simp] theorem State.setCursor_mask (v : BitVec 6) : (s.setCursor v).mask = s.mask := rfl
@[simp] theorem State.setCursor_bright (v : BitVec 6) : (s.setCursor v).bright = s.bright := rfl
@[simp] theorem State.setCursor_cursor (v : BitVec 6) : (s.setCursor v).cursor = v := rfl
@[simp] theorem State.setCursor_cnt (v : BitVec 6) : (s.setCursor v).cnt = s.cnt := rfl
@[simp] theorem State.setCursor_muxEn (v : BitVec 6) : (s.setCursor v).muxEn = s.muxEn := rfl
@[simp] theorem State.setCursor_fast (v : BitVec 6) : (s.setCursor v).fast = s.fast := rfl
@[simp] theorem State.setCursor_direct (v : BitVec 6) : (s.setCursor v).direct = s.direct := rfl
@[simp] theorem State.setCursor_sel (v : BitVec 6) : (s.setCursor v).sel = s.sel := rfl
@[simp] theorem State.setCursor_ledOn (v : BitVec 6) : (s.setCursor v).ledOn = s.ledOn := rfl
@[simp] theorem State.setCursor_pins (v : BitVec 6) : (s.setCursor v).pins = s.pins := rfl
@[simp] theorem State.setCursor_rsp (v : BitVec 6) : (s.setCursor v).rsp = s.rsp := rfl
@[simp] theorem State.setCursor_inputs (v : BitVec 6) : (s.setCursor v).inputs = s.inputs := rfl

@[simp] theorem State.setCnt_mask (v : Byte) : (s.setCnt v).mask = s.mask := rfl
@[simp] theorem State.setCnt_bright (v : Byte) : (s.setCnt v).bright = s.bright := rfl
@[simp] theorem State.setCnt_cursor (v : Byte) : (s.setCnt v).cursor = s.cursor := rfl
@[simp] theorem State.setCnt_cnt (v : Byte) : (s.setCnt v).cnt = v := rfl
@[simp] theorem State.setCnt_muxEn (v : Byte) : (s.setCnt v).muxEn = s.muxEn := rfl
@[simp] theorem State.setCnt_fast (v : Byte) : (s.setCnt v).fast = s.fast := rfl
@[simp] theorem State.setCnt_direct (v : Byte) : (s.setCnt v).direct = s.direct := rfl
@[simp] theorem State.setCnt_sel (v : Byte) : (s.setCnt v).sel = s.sel := rfl
@[simp] theorem State.setCnt_ledOn (v : Byte) : (s.setCnt v).ledOn = s.ledOn := rfl
@[simp] theorem State.setCnt_pins (v : Byte) : (s.setCnt v).pins = s.pins := rfl
@[simp] theorem State.setCnt_rsp (v : Byte) : (s.setCnt v).rsp = s.rsp := rfl
@[simp] theorem State.setCnt_inputs (v : Byte) : (s.setCnt v).inputs = s.inputs := rfl

@[simp] theorem State.setMuxEn_mask (v : Bool) : (s.setMuxEn v).mask = s.mask := rfl
@[simp] theorem State.setMuxEn_bright (v : Bool) : (s.setMuxEn v).bright = s.bright := rfl
@[simp] theorem State.setMuxEn_cursor (v : Bool) : (s.setMuxEn v).cursor = s.cursor := rfl
@[simp] theorem State.setMuxEn_cnt (v : Bool) : (s.setMuxEn v).cnt = s.cnt := rfl
@[simp] theorem State.setMuxEn_muxEn (v : Bool) : (s.setMuxEn v).muxEn = v := rfl
@[simp] theorem State.setMuxEn_fast (v : Bool) : (s.setMuxEn v).fast = s.fast := rfl
@[simp] theorem State.setMuxEn_direct (v : Bool) : (s.setMuxEn v).direct = s.direct := rfl
@[simp] theorem State.setMuxEn_sel (v : Bool) : (s.setMuxEn v).sel = s.sel := rfl
@[simp] theorem State.setMuxEn_ledOn (v : Bool) : (s.setMuxEn v).ledOn = s.ledOn := rfl
@[simp] theorem State.setMuxEn_pins (v : Bool) : (s.setMuxEn v).pins = s.pins := rfl
@[simp] theorem State.setMuxEn_rsp (v : Bool) : (s.setMuxEn v).rsp = s.rsp := rfl
@[simp] theorem State.setMuxEn_inputs (v : Bool) : (s.setMuxEn v).inputs = s.inputs := rfl

@[simp] theorem State.setFast_mask (v : Bool) : (s.setFast v).mask = s.mask := rfl
@[simp] theorem State.setFast_bright (v : Bool) : (s.setFast v).bright = s.bright := rfl
@[simp] theorem State.setFast_cursor (v : Bool) : (s.setFast v).cursor = s.cursor := rfl
@[simp] theorem State.setFast_cnt (v : Bool) : (s.setFast v).cnt = s.cnt := rfl
@[simp] theorem State.setFast_muxEn (v : Bool) : (s.setFast v).muxEn = s.muxEn := rfl
@[simp] theorem State.setFast_fast (v : Bool) : (s.setFast v).fast = v := rfl
@[simp] theorem State.setFast_direct (v : Bool) : (s.setFast v).direct = s.direct := rfl
@[simp] theorem State.setFast_sel (v : Bool) : (s.setFast v).sel = s.sel := rfl
@[simp] theorem State.setFast_ledOn (v : Bool) : (s.setFast v).ledOn = s.ledOn := rfl
@[simp] theorem State.setFast_pins (v : Bool) : (s.setFast v).pins = s.pins := rfl
@[simp] theorem State.setFast_rsp (v : Bool) : (s.setFast v).rsp = s.rsp := rfl
@[simp] theorem State.setFast_inputs (v : Bool) : (s.setFast v).inputs = s.inputs := rfl

@[simp] theorem State.setDirect_mask (v : Bool) : (s.setDirect v).mask = s.mask := rfl
@[simp] theorem State.setDirect_bright (v : Bool) : (s.setDirect v).bright = s.bright := rfl
@[simp] theorem State.setDirect_cursor (v : Bool) : (s.setDirect v).cursor = s.cursor := rfl
@[simp] theorem State.setDirect_cnt (v : Bool) : (s.setDirect v).cnt = s.cnt := rfl
@[simp] theorem State.setDirect_muxEn (v : Bool) : (s.setDirect v).muxEn = s.muxEn := rfl
@[simp] theorem State.setDirect_fast (v : Bool) : (s.setDirect v).fast = s.fast := rfl
@[simp] theorem State.setDirect_direct (v : Bool) : (s.setDirect v).direct = v := rfl
@[simp] theorem State.setDirect_sel (v : Bool) : (s.setDirect v).sel = s.sel := rfl
@[simp] theorem State.setDirect_ledOn (v : Bool) : (s.setDirect v).ledOn = s.ledOn := rfl
@[simp] theorem State.setDirect_pins (v : Bool) : (s.setDirect v).pins = s.pins := rfl
@[simp] theorem State.setDirect_rsp (v : Bool) : (s.setDirect v).rsp = s.rsp := rfl
@[simp] theorem State.setDirect_inputs (v : Bool) : (s.setDirect v).inputs = s.inputs := rfl

@[simp] theorem State.setSel_mask (v : Option PinPair) : (s.setSel v).mask = s.mask := rfl
@[simp] theorem State.setSel_bright (v : Option PinPair) : (s.setSel v).bright = s.bright := rfl
@[simp] theorem State.setSel_cursor (v : Option PinPair) : (s.setSel v).cursor = s.cursor := rfl
@[simp] theorem State.setSel_cnt (v : Option PinPair) : (s.setSel v).cnt = s.cnt := rfl
@[simp] theorem State.setSel_muxEn (v : Option PinPair) : (s.setSel v).muxEn = s.muxEn := rfl
@[simp] theorem State.setSel_fast (v : Option PinPair) : (s.setSel v).fast = s.fast := rfl
@[simp] theorem State.setSel_direct (v : Option PinPair) : (s.setSel v).direct = s.direct := rfl
@[simp] theorem State.setSel_sel (v : Option PinPair) : (s.setSel v).sel = v := rfl
@[simp] theorem State.setSel_ledOn (v : Option PinPair) : (s.setSel v).ledOn = s.ledOn := rfl
@[simp] theorem State.setSel_pins (v : Option PinPair) : (s.setSel v).pins = s.pins := rfl
@[simp] theorem State.setSel_rsp (v : Option PinPair) : (s.setSel v).rsp = s.rsp := rfl
@[simp] theorem State.setSel_inputs (v : Option PinPair) : (s.setSel v).inputs = s.inputs := rfl

@[simp] theorem State.setLedOn_mask (v : Bool) : (s.setLedOn v).mask = s.mask := rfl
@[simp] theorem State.setLedOn_bright (v : Bool) : (s.setLedOn v).bright = s.bright := rfl
@[simp] theorem State.setLedOn_cursor (v : Bool) : (s.setLedOn v).cursor = s.cursor := rfl
@[simp] theorem State.setLedOn_cnt (v : Bool) : (s.setLedOn v).cnt = s.cnt := rfl
@[simp] theorem State.setLedOn_muxEn (v : Bool) : (s.setLedOn v).muxEn = s.muxEn := rfl
@[simp] theorem State.setLedOn_fast (v : Bool) : (s.setLedOn v).fast = s.fast := rfl
@[simp] theorem State.setLedOn_direct (v : Bool) : (s.setLedOn v).direct = s.direct := rfl
@[simp] theorem State.setLedOn_sel (v : Bool) : (s.setLedOn v).sel = s.sel := rfl
@[simp] theorem State.setLedOn_ledOn (v : Bool) : (s.setLedOn v).ledOn = v := rfl
@[simp] theorem State.setLedOn_pins (v : Bool) : (s.setLedOn v).pins = s.pins := rfl
@[simp] theorem State.setLedOn_rsp (v : Bool) : (s.setLedOn v).rsp = s.rsp := rfl
@[simp] theorem State.setLedOn_inputs (v : Bool) : (s.setLedOn v).inputs = s.inputs := rfl

@[simp] theorem State.setPins_mask (v : Pins) : (s.setPins v).mask = s.mask := rfl
@[simp] theorem State.setPins_bright (v : Pins) : (s.setPins v).bright = s.bright := rfl
@[simp] theorem State.setPins_cursor (v : Pins) : (s.setPins v).cursor = s.cursor := rfl
@[simp] theorem State.setPins_cnt (v : Pins) : (s.setPins v).cnt = s.cnt := rfl
@[simp] theorem State.setPins_muxEn (v : Pins) : (s.setPins v).muxEn = s.muxEn := rfl
@[simp] theorem State.setPins_fast (v : Pins) : (s.setPins v).fast = s.fast := rfl
@[simp] theorem State.setPins_direct (v : Pins) : (s.setPins v).direct = s.direct := rfl
@[simp] theorem State.setPins_sel (v : Pins) : (s.setPins v).sel = s.sel := rfl
@[simp] theorem State.setPins_ledOn (v : Pins) : (s.setPins v).ledOn = s.ledOn := rfl
@[simp] theorem State.setPins_pins (v : Pins) : (s.setPins v).pins = v := rfl
@[simp] theorem State.setPins_rsp (v : Pins) : (s.setPins v).rsp = s.rsp := rfl
@[simp] theorem State.setPins_inputs (v : Pins) : (s.setPins v).inputs = s.inputs := rfl

@[simp] theorem State.setRsp_mask (v : Option Frame64) : (s.setRsp v).mask = s.mask := rfl
@[simp] theorem State.setRsp_bright (v : Option Frame64) : (s.setRsp v).bright = s.bright := rfl
@[simp] theorem State.setRsp_cursor (v : Option Frame64) : (s.setRsp v).cursor = s.cursor := rfl
@[simp] theorem State.setRsp_cnt (v : Option Frame64) : (s.setRsp v).cnt = s.cnt := rfl
@[simp] theorem State.setRsp_muxEn (v : Option Frame64) : (s.setRsp v).muxEn = s.muxEn := rfl
@[simp] theorem State.setRsp_fast (v : Option Frame64) : (s.setRsp v).fast = s.fast := rfl
@[simp] theorem State.setRsp_direct (v : Option Frame64) : (s.setRsp v).direct = s.direct := rfl
@[simp] theorem State.setRsp_sel (v : Option Frame64) : (s.setRsp v).sel = s.sel := rfl
@[simp] theorem State.setRsp_ledOn (v : Option Frame64) : (s.setRsp v).ledOn = s.ledOn := rfl
@[simp] theorem State.setRsp_pins (v : Option Frame64) : (s.setRsp v).pins = s.pins := rfl
@[simp] theorem State.setRsp_rsp (v : Option Frame64) : (s.setRsp v).rsp = v := rfl
@[simp] theorem State.setRsp_inputs (v : Option Frame64) : (s.setRsp v).inputs = s.inputs := rfl

@[simp] theorem State.setInputs_mask (v : List Clock) : (s.setInputs v).mask = s.mask := rfl
@[simp] theorem State.setInputs_bright (v : List Clock) : (s.setInputs v).bright = s.bright := rfl
@[simp] theorem State.setInputs_cursor (v : List Clock) : (s.setInputs v).cursor = s.cursor := rfl
@[simp] theorem State.setInputs_cnt (v : List Clock) : (s.setInputs v).cnt = s.cnt := rfl
@[simp] theorem State.setInputs_muxEn (v : List Clock) : (s.setInputs v).muxEn = s.muxEn := rfl
@[simp] theorem State.setInputs_fast (v : List Clock) : (s.setInputs v).fast = s.fast := rfl
@[simp] theorem State.setInputs_direct (v : List Clock) : (s.setInputs v).direct = s.direct := rfl
@[simp] theorem State.setInputs_sel (v : List Clock) : (s.setInputs v).sel = s.sel := rfl
@[simp] theorem State.setInputs_ledOn (v : List Clock) : (s.setInputs v).ledOn = s.ledOn := rfl
@[simp] theorem State.setInputs_pins (v : List Clock) : (s.setInputs v).pins = s.pins := rfl
@[simp] theorem State.setInputs_rsp (v : List Clock) : (s.setInputs v).rsp = s.rsp := rfl
@[simp] theorem State.setInputs_inputs (v : List Clock) : (s.setInputs v).inputs = v := rfl

/-! The derived writes. -/

@[simp] theorem State.respond_mask (v : Frame64) : (s.respond v).mask = s.mask := rfl
@[simp] theorem State.respond_bright (v : Frame64) : (s.respond v).bright = s.bright := rfl
@[simp] theorem State.respond_cursor (v : Frame64) : (s.respond v).cursor = s.cursor := rfl
@[simp] theorem State.respond_cnt (v : Frame64) : (s.respond v).cnt = s.cnt := rfl
@[simp] theorem State.respond_muxEn (v : Frame64) : (s.respond v).muxEn = s.muxEn := rfl
@[simp] theorem State.respond_fast (v : Frame64) : (s.respond v).fast = s.fast := rfl
@[simp] theorem State.respond_direct (v : Frame64) : (s.respond v).direct = s.direct := rfl
@[simp] theorem State.respond_sel (v : Frame64) : (s.respond v).sel = s.sel := rfl
@[simp] theorem State.respond_ledOn (v : Frame64) : (s.respond v).ledOn = s.ledOn := rfl
@[simp] theorem State.respond_pins (v : Frame64) : (s.respond v).pins = s.pins := rfl
@[simp] theorem State.respond_rsp (v : Frame64) : (s.respond v).rsp = some v := rfl
@[simp] theorem State.respond_inputs (v : Frame64) : (s.respond v).inputs = s.inputs := rfl

@[simp] theorem State.release_mask : (s.release).mask = s.mask := rfl
@[simp] theorem State.release_bright : (s.release).bright = s.bright := rfl
@[simp] theorem State.release_cursor : (s.release).cursor = s.cursor := rfl
@[simp] theorem State.release_cnt : (s.release).cnt = s.cnt := rfl
@[simp] theorem State.release_muxEn : (s.release).muxEn = s.muxEn := rfl
@[simp] theorem State.release_fast : (s.release).fast = s.fast := rfl
@[simp] theorem State.release_direct : (s.release).direct = s.direct := rfl
@[simp] theorem State.release_sel : (s.release).sel = s.sel := rfl
@[simp] theorem State.release_ledOn : (s.release).ledOn = false := rfl
@[simp] theorem State.release_pins : (s.release).pins = allOff s.pins := rfl
@[simp] theorem State.release_rsp : (s.release).rsp = s.rsp := rfl
@[simp] theorem State.release_inputs : (s.release).inputs = s.inputs := rfl

@[simp] theorem State.drive_mask (p : PinPair) : (s.drive p).mask = s.mask := rfl
@[simp] theorem State.drive_bright (p : PinPair) : (s.drive p).bright = s.bright := rfl
@[simp] theorem State.drive_cursor (p : PinPair) : (s.drive p).cursor = s.cursor := rfl
@[simp] theorem State.drive_cnt (p : PinPair) : (s.drive p).cnt = s.cnt := rfl
@[simp] theorem State.drive_muxEn (p : PinPair) : (s.drive p).muxEn = s.muxEn := rfl
@[simp] theorem State.drive_fast (p : PinPair) : (s.drive p).fast = s.fast := rfl
@[simp] theorem State.drive_direct (p : PinPair) : (s.drive p).direct = s.direct := rfl
@[simp] theorem State.drive_sel (p : PinPair) : (s.drive p).sel = s.sel := rfl
@[simp] theorem State.drive_ledOn (p : PinPair) : (s.drive p).ledOn = true := rfl
@[simp] theorem State.drive_pins (p : PinPair) : (s.drive p).pins = drivePair p s.pins := rfl
@[simp] theorem State.drive_rsp (p : PinPair) : (s.drive p).rsp = s.rsp := rfl
@[simp] theorem State.drive_inputs (p : PinPair) : (s.drive p).inputs = s.inputs := rfl

@[simp] theorem State.restartPeriod_mask : (s.restartPeriod).mask = s.mask := rfl
@[simp] theorem State.restartPeriod_bright : (s.restartPeriod).bright = s.bright := rfl
@[simp] theorem State.restartPeriod_cursor : (s.restartPeriod).cursor = s.cursor := rfl
@[simp] theorem State.restartPeriod_cnt : (s.restartPeriod).cnt = 0 := rfl
@[simp] theorem State.restartPeriod_muxEn : (s.restartPeriod).muxEn = s.muxEn := rfl
@[simp] theorem State.restartPeriod_fast : (s.restartPeriod).fast = s.fast := rfl
@[simp] theorem State.restartPeriod_direct : (s.restartPeriod).direct = s.direct := rfl
@[simp] theorem State.restartPeriod_sel : (s.restartPeriod).sel = s.sel := rfl
@[simp] theorem State.restartPeriod_ledOn : (s.restartPeriod).ledOn = s.ledOn := rfl
@[simp] theorem State.restartPeriod_pins : (s.restartPeriod).pins = s.pins := rfl
@[simp] theorem State.restartPeriod_rsp : (s.restartPeriod).rsp = s.rsp := rfl
@[simp] theorem State.restartPeriod_inputs : (s.restartPeriod).inputs = s.inputs := rfl

@[simp] theorem State.count_mask : (s.count).mask = s.mask := rfl
@[simp] theorem State.count_bright : (s.count).bright = s.bright := rfl
@[simp] theorem State.count_cursor : (s.count).cursor = s.cursor := rfl
@[simp] theorem State.count_cnt : (s.count).cnt = if s.wraps then 0 else s.cnt + 1 := rfl
@[simp] theorem State.count_muxEn : (s.count).muxEn = s.muxEn := rfl
@[simp] theorem State.count_fast : (s.count).fast = s.fast := rfl
@[simp] theorem State.count_direct : (s.count).direct = s.direct := rfl
@[simp] theorem State.count_sel : (s.count).sel = s.sel := rfl
@[simp] theorem State.count_ledOn : (s.count).ledOn = s.ledOn := rfl
@[simp] theorem State.count_pins : (s.count).pins = s.pins := rfl
@[simp] theorem State.count_rsp : (s.count).rsp = s.rsp := rfl
@[simp] theorem State.count_inputs : (s.count).inputs = s.inputs := rfl

@[simp] theorem State.beginClock_mask (rest : List Clock) : (s.beginClock rest).mask = s.mask := rfl
@[simp] theorem State.beginClock_bright (rest : List Clock) : (s.beginClock rest).bright = s.bright := rfl
@[simp] theorem State.beginClock_cursor (rest : List Clock) : (s.beginClock rest).cursor = s.cursor := rfl
@[simp] theorem State.beginClock_cnt (rest : List Clock) : (s.beginClock rest).cnt = s.cnt := rfl
@[simp] theorem State.beginClock_muxEn (rest : List Clock) : (s.beginClock rest).muxEn = s.muxEn := rfl
@[simp] theorem State.beginClock_fast (rest : List Clock) : (s.beginClock rest).fast = s.fast := rfl
@[simp] theorem State.beginClock_direct (rest : List Clock) : (s.beginClock rest).direct = s.direct := rfl
@[simp] theorem State.beginClock_sel (rest : List Clock) : (s.beginClock rest).sel = s.sel := rfl
@[simp] theorem State.beginClock_ledOn (rest : List Clock) : (s.beginClock rest).ledOn = s.ledOn := rfl
@[simp] theorem State.beginClock_pins (rest : List Clock) : (s.beginClock rest).pins = s.pins := rfl
@[simp] theorem State.beginClock_rsp (rest : List Clock) : (s.beginClock rest).rsp = none := rfl
@[simp] theorem State.beginClock_inputs (rest : List Clock) : (s.beginClock rest).inputs = rest := rfl

end Sys2Proof.Machine
end

