-- ==== Sys2Proof/Laws/Ops.lean ====
section
/-! SUPPORT. One lemma per shared operation that says what it can do. -/

namespace Sys2Proof.Machine

/-! ### Operands -/

@[simp] theorem ledOfIndex_indexOfLed (i : LedIndex) : ledOfIndex (indexOfLed i) = some i := by
  revert i; decide

theorem ledOfIndex_eq_none {index : Byte} (h : 42 ≤ index.toNat) : ledOfIndex index = none := by
  simp [ledOfIndex, Nat.not_lt.mpr h]

theorem ledOfIndex_eq_some {index : Byte} {i : LedIndex} : ledOfIndex index = some i ↔ index = indexOfLed i := by
  constructor
  · intro h
    unfold ledOfIndex at h
    split at h
    · injection h with h
      subst h
      simp [indexOfLed]
    · cases h
  · rintro rfl
    exact ledOfIndex_indexOfLed i

@[simp] theorem lookup_indexOfLed (pm : Wiring) (i : LedIndex) : lookup pm (indexOfLed i) = some (pm i) := by
  simp [lookup]

theorem maskBit_writeMaskBit (m : Mask) (i j : LedIndex) (b : Bool) :
    maskBit (writeMaskBit m i b) j = if j = i then b else maskBit m j := by
  by_cases h : j = i
  · subst h
    cases b <;> simp [maskBit, writeMaskBit]
  · have h' : j.val ≠ i.val := fun e => h (Fin.ext e)
    cases b <;> simp [maskBit, writeMaskBit, h, h']

/-- Two bitmasks that agree on every LED are equal. -/
theorem mask_ext {m n : Mask} (h : ∀ i : LedIndex, maskBit m i = maskBit n i) : m = n := by
  apply BitVec.eq_of_getLsbD_eq
  intro k hk
  exact h ⟨k, hk⟩

theorem maskBit_maskOfFrame (w0 w1 : Word32) (i : LedIndex) :
    maskBit (maskOfFrame w0 w1) i = if i.val < 32 then w0.getLsbD i.val else w1.getLsbD (i.val - 32) := by
  have := i.isLt
  unfold maskBit maskOfFrame
  rw [BitVec.getLsbD_append]
  split
  · rfl
  · rw [BitVec.getLsbD_extractLsb', Nat.zero_add]
    simp [show i.val - 32 < 10 by omega]

/-- The read-back of a bitmask, bit by bit. -/
theorem getLsbD_frameOfMask (m : Mask) (k : Nat) :
    (frameOfMask m).getLsbD k = if h : k < 42 then maskBit m ⟨k, h⟩ else false := by
  simp only [frameOfMask, maskWord0, maskWord1, BitVec.getLsbD_append, BitVec.getLsbD_setWidth,
    BitVec.getLsbD_extractLsb', maskBit]
  by_cases a : k < 32
  · simp [a, show k < 42 by omega]
  · by_cases b : k < 42
    · simp [a, b, show k - 32 < 10 by omega, show 32 + (k - 32) = k by omega]
      intro
      omega
    · simp [a, b, show ¬ k - 32 < 10 by omega]

/-! ### The driver -/

theorem driveHigh_get (p q : Pin) (ps : Pins) : (driveHigh p ps)[q] = if q = p then .high else ps[q] := by
  by_cases h : q = p
  · subst h; simp [driveHigh]
  · have : p.val ≠ q.val := fun e => h (Fin.ext e.symm)
    simp [driveHigh, h, this]

theorem driveLow_get (p q : Pin) (ps : Pins) : (driveLow p ps)[q] = if q = p then .low else ps[q] := by
  by_cases h : q = p
  · subst h; simp [driveLow]
  · have : p.val ≠ q.val := fun e => h (Fin.ext e.symm)
    simp [driveLow, h, this]

theorem triState_get (p q : Pin) (ps : Pins) : (triState p ps)[q] = if q = p then .z else ps[q] := by
  by_cases h : q = p
  · subst h; simp [triState]
  · have : p.val ≠ q.val := fun e => h (Fin.ext e.symm)
    simp [triState, h, this]

/-- Two pin vectors that agree on every pin are equal. -/
theorem pins_ext {ps qs : Pins} (h : ∀ q : Pin, ps[q] = qs[q]) : ps = qs := by
  apply Vector.ext
  intro k hk
  exact h ⟨k, hk⟩

@[simp] theorem allZ_get (q : Pin) : allZ[q] = .z := by simp [allZ]

@[simp] theorem allOff_eq (ps : Pins) : allOff ps = allZ := by
  apply pins_ext
  intro q
  rw [allZ_get]
  unfold allOff
  rw [show List.finRange 7 = [0, 1, 2, 3, 4, 5, 6] by decide]
  simp only [List.foldl, triState_get]
  fin_cases q <;> rfl

theorem drivePair_get (p : PinPair) (q : Pin) (ps : Pins) :
    (drivePair p ps)[q] = if q = p.cathode then .low else if q = p.anode then .high else ps[q] := by
  rw [drivePair, driveLow_get, driveHigh_get]

theorem pairPins_get (p : PinPair) (q : Pin) :
    (pairPins p)[q] = if q = p.cathode then .low else if q = p.anode then .high else .z := by
  simp [pairPins]

@[simp] theorem drivePair_allZ (p : PinPair) : drivePair p allZ = pairPins p := by
  apply pins_ext
  intro q
  rw [drivePair_get, pairPins_get, allZ_get]

/-- A release tri-states every pin and clears `LED_ON`. -/
theorem release_eq (s : State) : s.release = (s.setPins allZ).setLedOn false := by
  rw [State.release, allOff_eq]

/-! ### The data and mode commands -/

/-- An index up to 41 is some LED's. -/
theorem index_is_led {index : Byte} (h : index.toNat < 42) : ∃ i : LedIndex, index = indexOfLed i :=
  ⟨⟨index.toNat, h⟩, by simp [indexOfLed]⟩

/-- `SET_LED_BIT` writes one cell, or nothing for an index of 42 or more. -/
theorem execSetLedBit_cases (index : Byte) (state : Bool) (s : State) :
    (∃ i, index = indexOfLed i ∧
      execSetLedBit index state s = .next ((s.setMask (writeMaskBit s.mask i state)).respond 0)) ∨
    (42 ≤ index.toNat ∧ execSetLedBit index state s = .next (s.respond 0)) := by
  by_cases h : index.toNat < 42
  · obtain ⟨i, rfl⟩ := index_is_led h
    exact .inl ⟨i, rfl, by rw [execSetLedBit, ledOfIndex_indexOfLed]⟩
  · refine .inr ⟨Nat.le_of_not_lt h, ?_⟩
    rw [execSetLedBit, ledOfIndex_eq_none (Nat.le_of_not_lt h)]

/-- `DIRECT_DRIVE` selects the LED's pair undriven, clears the selection, or does nothing for an index of 42 or more. -/
theorem directDriveWith_cases (pm : Wiring) (index : Byte) (state : Bool) (s : State) :
    (∃ i, index = indexOfLed i ∧ state = true ∧ directDriveWith pm index state s =
      { s with
        sel := some (pm i), ledOn := false, pins := allZ, direct := true, muxEn := false, cnt := 0, rsp := some 0 }) ∨
    (∃ i, index = indexOfLed i ∧ state = false ∧ directDriveWith pm index state s =
      { s with
        sel := none, ledOn := false, pins := allZ, direct := false, cnt := 0, rsp := some 0 }) ∨
    (42 ≤ index.toNat ∧ directDriveWith pm index state s = s.respond 0) := by
  by_cases h : index.toNat < 42
  · obtain ⟨i, rfl⟩ := index_is_led h
    cases state
    · refine .inr (.inl ⟨i, rfl, rfl, ?_⟩)
      rw [directDriveWith, ledOfIndex_indexOfLed]
      simp only [directDriveIn, release_eq, State.restartPeriod, State.respond, State.setSel, State.setPins,
        State.setLedOn, State.setDirect, State.setCnt, State.setRsp, Bool.false_eq_true, if_false]
    · refine .inl ⟨i, rfl, rfl, ?_⟩
      rw [directDriveWith, ledOfIndex_indexOfLed]
      simp only [directDriveIn, release_eq, lookup_indexOfLed, State.restartPeriod, State.respond, State.setSel,
        State.setPins, State.setLedOn, State.setDirect, State.setMuxEn, State.setCnt, State.setRsp, if_true]
  · refine .inr (.inr ⟨Nat.le_of_not_lt h, ?_⟩)
    rw [directDriveWith, ledOfIndex_eq_none (Nat.le_of_not_lt h)]

/-! ### The selector -/

/-- What a search can answer: the LED of some probe, enabled, with no earlier probe enabled; or nothing, with no probe
enabled. -/
theorem findNext_cases (m : Mask) (cur : BitVec 6) :
    (∃ k < 42, findNext m cur = some (probeIndex cur k) ∧ maskBit m (probeIndex cur k) = true ∧
      ∀ j < k, maskBit m (probeIndex cur j) = false) ∨
    (findNext m cur = none ∧ ∀ k < 42, maskBit m (probeIndex cur k) = false) := by
  unfold findNext
  cases h : ((List.range Config.probes).map (probeIndex cur)).find? (maskBit m) with
  | none =>
    right
    refine ⟨rfl, fun k hk => ?_⟩
    rw [List.find?_eq_none] at h
    simpa using h (probeIndex cur k) (List.mem_map_of_mem (List.mem_range.mpr hk))
  | some i =>
    left
    rw [List.find?_eq_some_iff_getElem] at h
    obtain ⟨hi, k, hk, hki, hlt⟩ := h
    rw [List.length_map, List.length_range] at hk
    have hp : probeIndex cur k = i := by simpa using hki
    refine ⟨k, hk, by rw [hp], by rw [hp]; exact hi, fun j hj => ?_⟩
    simpa using hlt j hj

theorem cursorPast_toNat (i : LedIndex) : (cursorPast i).toNat = (i.val + 1) % 42 := by
  have := Nat.mod_lt (i.val + 1) (show 42 > 0 by decide)
  simp [cursorPast]
  omega

/-! ### The steps of a tick -/

/-- Step 2 at a wrap: the LED found is selected, released and passed by the cursor; or the selection is cleared. -/
theorem selectNext_cases (pm : Wiring) (s : State) :
    (∃ i, findNext s.mask s.cursor = some i ∧
      s.selectNext pm = ((s.release.setSel (some (pm i))).setCursor (cursorPast i))) ∨
    (findNext s.mask s.cursor = none ∧ s.selectNext pm = s.setSel none) := by
  unfold State.selectNext
  cases findNext s.mask s.cursor with
  | none => exact .inr ⟨rfl, rfl⟩
  | some i => exact .inl ⟨i, rfl, by simp⟩

theorem wantOn_iff (s : State) : s.wantOn = true ↔ s.sel ≠ none ∧ s.cnt.toNat < s.bright.toNat := by
  simp only [State.wantOn, Bool.and_eq_true, decide_eq_true_eq, Option.isSome_iff_ne_none]
  constructor
  · rintro ⟨⟨h1, -⟩, h2⟩; exact ⟨h1, h2⟩
  · rintro ⟨h1, h2⟩; exact ⟨⟨h1, by omega⟩, h2⟩

/-- Step 3: the gating drives, releases, or leaves the state as it is. -/
theorem gate_cases (s : State) :
    (∃ p, s.wantOn = true ∧ s.ledOn = false ∧ s.sel = some p ∧ s.gate = s.drive p) ∨
    (s.wantOn = false ∧ s.ledOn = true ∧ s.gate = s.release) ∨
    (s.wantOn = s.ledOn ∧ s.gate = s) := by
  unfold State.gate
  cases hw : s.wantOn <;> cases hl : s.ledOn
  · exact .inr (.inr ⟨rfl, rfl⟩)
  · exact .inr (.inl ⟨rfl, rfl, rfl⟩)
  · obtain ⟨p, hp⟩ := Option.ne_none_iff_exists'.mp ((wantOn_iff s).mp hw).1
    exact .inl ⟨p, rfl, rfl, hp, by rw [hp]⟩
  · exact .inr (.inr ⟨rfl, rfl⟩)

/-- The gating keeps every field but `LED_ON` and the pins, and leaves `LED_ON` at what was wanted. -/
theorem gate_keeps (s : State) :
    s.gate = (s.setPins s.gate.pins).setLedOn s.wantOn := by
  rcases gate_cases s with ⟨p, hw, -, -, h⟩ | ⟨hw, -, h⟩ | ⟨hw, h⟩ <;> rw [h, hw] <;> rfl

/-- A tick is its gating, after the count and, at a wrap with `MUX_EN = 1`, the cursor advance. -/
theorem tickWith_eq (pm : Wiring) (s : State) :
    tickWith pm s = (if s.wraps && s.muxEn then s.count.selectNext pm else s.count).gate := by
  unfold tickWith
  split <;> rfl

/-- What a tick never writes. -/
theorem tickWith_keeps (pm : Wiring) (s : State) :
    (tickWith pm s).mask = s.mask ∧ (tickWith pm s).bright = s.bright ∧ (tickWith pm s).muxEn = s.muxEn ∧
    (tickWith pm s).fast = s.fast ∧ (tickWith pm s).direct = s.direct ∧ (tickWith pm s).rsp = s.rsp ∧
    (tickWith pm s).inputs = s.inputs := by
  rw [tickWith_eq, gate_keeps]
  split
  · rcases selectNext_cases pm s.count with ⟨i, -, h⟩ | ⟨-, h⟩ <;> rw [h] <;> simp [State.count, State.release]
  · simp [State.count]

/-! ### Events -/

@[simp] theorem andThen_next (s : State) (f : State → Host.Outcome State Fault Refusal) :
    andThen (.next s) f = f s := rfl

theorem runEvents_append (es fs : List Event) (s : State) :
    runEvents (es ++ fs) s = andThen (runEvents es s) (runEvents fs) := by
  induction es generalizing s with
  | nil => rfl
  | cons e es ih =>
    show andThen (runEvent e s) (runEvents (es ++ fs)) = andThen (andThen (runEvent e s) (runEvents es)) (runEvents fs)
    cases h : runEvent e s with
    | next t => exact ih t
    | fault r => rfl
    | refused r => rfl

/-- One step more of a run. -/
theorem run_succ (k : Nat) (s t : State) (h : step s = .next t) :
    Host.Core.run Sys2Proof.core (k + 1) s = Host.Core.run Sys2Proof.core k t := by
  have h' : Sys2Proof.core.step s = .next t := h
  simp only [Host.Core.run, h']

end Sys2Proof.Machine
end

