-- ==== Sys2Proof/Laws/PerInstr.lean ====
section
/-! SUPPORT. The per-instruction family WellFormed: the assembler accepts the line that writes an instruction. -/

namespace Sys2Proof.Laws.WellFormed

open Sys2Proof

/-- The instruction is well formed, with every operand at every value its field holds. -/
def Statement (i : Instr) : Prop := i.wellFormed = true

theorem checkValue_byte (v : Byte) : checkValue v.toNat = none := by
  have := v.isLt
  simp [checkValue]; omega

theorem checkIndex_byte (v : Byte) : checkIndex v.toNat = none := by
  have := v.isLt
  simp [checkIndex]; omega

theorem checkState_bit (b : Bool) : checkState b.toNat = none := by cases b <;> rfl

theorem checkEnable_bit (b : Bool) : checkEnable b.toNat = none := by cases b <;> rfl

theorem checkFrame_words (w0 w1 : Word32) : checkFrame (.words w0.toNat w1.toNat) = none := by
  have h0 : w0.toNat ≤ 4294967295 := by have := w0.isLt; omega
  have h1 : w1.toNat ≤ 4294967295 := by have := w1.isLt; omega
  simp [checkFrame, FrameOperand.w0, FrameOperand.w1, h0, h1]

theorem setBrightness (value : Byte) : Statement (.setBrightness value) := by
  simp [Statement, Instr.wellFormed, Instr.toAsm, AsmLine.wellFormed, AsmLine.check, checkValue_byte]
theorem getBrightness : Statement .getBrightness := rfl
theorem setLedBit (index : Byte) (state : Bool) : Statement (.setLedBit index state) := by
  simp [Statement, Instr.wellFormed, Instr.toAsm, AsmLine.wellFormed, AsmLine.check, checkIndex_byte, checkState_bit]
theorem replaceBitmask (w0 w1 : Word32) : Statement (.replaceBitmask w0 w1) := by
  simp [Statement, Instr.wellFormed, Instr.toAsm, AsmLine.wellFormed, AsmLine.check, checkFrame_words]
theorem readBitmask : Statement .readBitmask := rfl
theorem clearAll : Statement .clearAll := rfl
theorem setAll : Statement .setAll := rfl
theorem enableMultiplex (w0 w1 : Word32) : Statement (.enableMultiplex w0 w1) := by
  simp [Statement, Instr.wellFormed, Instr.toAsm, AsmLine.wellFormed, AsmLine.check, checkFrame_words]
theorem disableMultiplex : Statement .disableMultiplex := rfl
theorem directDrive (index : Byte) (state : Bool) : Statement (.directDrive index state) := by
  simp [Statement, Instr.wellFormed, Instr.toAsm, AsmLine.wellFormed, AsmLine.check, checkIndex_byte, checkState_bit]
theorem setFastPwmMode (enable : Bool) : Statement (.setFastPwmMode enable) := by
  simp [Statement, Instr.wellFormed, Instr.toAsm, AsmLine.wellFormed, AsmLine.check, checkEnable_bit]
theorem tick : Statement .tick := rfl

end Sys2Proof.Laws.WellFormed
end

