-- ==== Sys2Proof/Tests/Slice0.lean ====
section
/-! SUPPORT. The model's own tests. Expected results come from the spec: the worked encodings of spec/30_encoding.md R85 and
the vectors V-… of spec/95_test_vectors.md, which use the example map. The last part holds, for each statement with
hypotheses, a witness: a concrete state and operands that meet them. -/

namespace Sys2Proof.Machine.Tests

/-! ### Helpers -/

/-- A state in the order the vectors write one; no response, no clocks to come. -/
def st (mask : Mask) (bright : Byte) (cursor : BitVec 6) (cnt : Byte) (muxEn fast direct : Bool) (sel : Option PinPair)
    (ledOn : Bool) (pins : Pins) : State :=
  { mask, bright, cursor, cnt, muxEn, fast, direct, sel, ledOn, pins, rsp := none, inputs := [] }

/-- A pin pair. -/
def pr (a c : Pin) : PinPair := { anode := a, cathode := c }

/-- The next state of an outcome. -/
def after (o : Host.Outcome State Fault Refusal) : Option State :=
  match o with
  | .next t => some t
  | .fault _ => none
  | .refused _ => none

/-- A clock with a command word. -/
def cmdClock (C : CmdWord) : Clock := { rst := false, tick := false, cmdValid := true, cmd := C }

/-! ### Decoding and encoding -/

/-- `SET_LED_BIT 41, 1` written out from R71 to R74: opcode 0x03, operand word 1 ignored, in word 0 `state` at bit 8 and
`index` = 41 in bits 7 to 0. -/
theorem test_decode_data_bits :
    decode (.command (0b00000011#8 ++ 0b00000000000000000000000000000000#32 ++
      (0b00000000000000000000000#23 ++ 0b1#1 ++ 0b00101001#8))) = .ok (.setLedBit 41 true) := by decide

/-- `ENABLE_MULTIPLEX FRAME` 0, 31, 41 written out: opcode 0x08, word 1 with bit 9, word 0 with bits 31 and 0. -/
theorem test_decode_mode_bits :
    decode (.command (0b00001000#8 ++ 0b00000000000000000000001000000000#32 ++
      0b10000000000000000000000000000001#32)) = .ok (.enableMultiplex 0x80000001 0x200) := by decide

/-- R84: the tick port at 1 is `TICK`, at 0 nothing. -/
theorem test_decode_tick_port : decode (.tickPort 0b1#1) = .ok .tick ∧ decode (.tickPort 0b0#1) = .error .noTickRequest := by
  decide

theorem test_decode_setBrightness : decodeTableWord 72 0x010000000000000080 = some (.setBrightness 128) := by decide
/-- V-D4: ignored bits set. -/
theorem test_decode_ignores_bits : decodeTableWord 72 0x01FFFFFFFFFFFFFFFF = some (.setBrightness 255) := by decide
theorem test_decode_getBrightness : decodeTableWord 72 0x020000000000000000 = some .getBrightness := by decide
theorem test_decode_setLedBit : decodeTableWord 72 0x030000000000000105 = some (.setLedBit 5 true) := by decide
theorem test_decode_replaceBitmask :
    decodeTableWord 72 0x04FFFFFFFFDEADBEEF = some (.replaceBitmask 0xDEADBEEF 0xFFFFFFFF) := by decide
theorem test_decode_readBitmask : decodeTableWord 72 0x050000000000000000 = some .readBitmask := by decide
theorem test_decode_clearAll : decodeTableWord 72 0x060000000000000000 = some .clearAll := by decide
theorem test_decode_setAll : decodeTableWord 72 0x070000000000000000 = some .setAll := by decide
theorem test_decode_enableMultiplex :
    decodeTableWord 72 0x080000020000100000 = some (.enableMultiplex 0x100000 0x200) := by decide
theorem test_decode_disableMultiplex : decodeTableWord 72 0x090000000000000000 = some .disableMultiplex := by decide
theorem test_decode_directDrive : decodeTableWord 72 0x0A0000000000000029 = some (.directDrive 41 false) := by decide
theorem test_decode_setFastPwmMode : decodeTableWord 72 0x0B0000000000000001 = some (.setFastPwmMode true) := by decide
theorem test_decode_tick : decodeTableWord 8 1 = some .tick ∧ decodeTableWord 8 0 = none := by decide
/-- R75: the reserved opcodes at the ends of both ranges. -/
theorem test_decode_reserved : decodeTableWord 72 0x000000000000000000 = none ∧
    decodeTableWord 72 0x0C0000000000000000 = none ∧ decodeTableWord 72 0xFFFFFFFFFFFFFFFFFF = none := by decide

/-- R85, the words of R79's syntax. -/
theorem test_encode_words : encode (.setLedBit 41 false) = .command 0x030000000000000029 ∧
    encode (.directDrive 41 true) = .command 0x0A0000000000000129 ∧
    encode (.enableMultiplex 0x80000001 0x200) = .command 0x080000020080000001 ∧
    encode (.setFastPwmMode true) = .command 0x0B0000000000000001 := by decide

/-- Program P3: the serial bytes of a command, both ways, and of its read-back response. -/
theorem test_serial_form :
    bytesOfCommand 0x04FFFFFFFFDEADBEEF = [0x04, 0xEF, 0xBE, 0xAD, 0xDE, 0xFF, 0xFF, 0xFF, 0xFF] ∧
    decodeBytes [0x0A, 0x29, 0x01, 0, 0, 0, 0, 0, 0] = .ok (.directDrive 41 true) ∧
    decodeBytes [0x0A, 0x29, 0x01, 0, 0, 0, 0, 0] = .error (.notNineBytes 8) ∧
    bytesOfFrame 0x3FFDEADBEEF = [0xEF, 0xBE, 0xAD, 0xDE, 0xFF, 0x03, 0, 0] := by decide

/-! ### Well-formedness: for each check an ill-formed line, refused (R79) -/

theorem test_value_check : (AsmLine.setBrightness 256).check = some (.valueOutOfRange 256) ∧
    (AsmLine.setBrightness 255).wellFormed = true := by decide
theorem test_index_check : (AsmLine.setLedBit 256 1).check = some (.indexOutOfRange 256) ∧
    (AsmLine.directOn 256).wellFormed = false ∧ (AsmLine.setLedBit 255 1).wellFormed = true := by decide
theorem test_state_check : (AsmLine.directDrive 5 2).check = some (.stateOutOfRange 2) := by decide
theorem test_enable_check : (AsmLine.setFastPwmMode 2).check = some (.enableOutOfRange 2) := by decide
theorem test_frame_w0_check :
    (AsmLine.replaceBitmask (.words 0x100000000 0)).check = some (.w0OutOfRange 0x100000000) := by decide
theorem test_frame_w1_check : (AsmLine.enableMultiplex (.words 0 0x100000000)).wellFormed = false ∧
    (AsmLine.enableMultiplex (.leds [64])).wellFormed = false := by decide
theorem test_raw_word_check : (AsmLine.word (2 ^ 72)).wellFormed = false ∧ (AsmLine.word (2 ^ 72 - 1)).wellFormed = true := by
  decide
theorem test_instr_wellFormed : (Instr.directDrive 255 true).wellFormed = true := by decide

/-! ### The assembler's text (R79, R81, R85) -/

theorem test_assemble_comment :
    assembleText "SET_LED_BIT 5, 1 ; LED 5 on".toList = .ok [.command 0x030000000000000105] := by decide
theorem test_assemble_frame :
    assembleText ("ENABLE_MULTIPLEX FRAME ".toList ++ openBraceChar :: "0, 31, 41".toList ++ [closeBraceChar]) =
      .ok [.command 0x080000020080000001] := by decide
theorem test_assemble_raw_word :
    assembleText ".word 0x03FFFFFFFFFFFFFE05".toList = .ok [.command 0x03FFFFFFFFFFFFFE05] := by decide
theorem test_assemble_pseudo : assembleText "DIRECT_ON 41".toList = .ok [.command 0x0A0000000000000129] ∧
    assembleText "TICKS 2".toList = .ok [.tickPort 1, .tickPort 1] := by decide
theorem test_assemble_refuses : assembleText "SET_BRIGHTNESS 256".toList = .error (.valueOutOfRange 256) ∧
    assembleText "HALT".toList = .error .unknownMnemonic := by decide

/-- The model's choice of log 12: an empty list is the pair 0, 0. -/
theorem test_assemble_empty_frame :
    assembleText ("REPLACE_BITMASK FRAME ".toList ++ [openBraceChar, closeBraceChar]) =
      .ok [.command 0x040000000000000000] := by decide
/-- Log 12: a trailing comma and a capital X are refused; `.word` may be decimal; no blank is needed beside a brace. -/
theorem test_assemble_lexical : assembleText "DIRECT_ON 41,".toList = .error .wrongOperands ∧
    assembleText "DIRECT_ON 0X29".toList = .error .notANumber ∧ assembleText ".word 5".toList = .ok [.command 5] ∧
    assembleText ("REPLACE_BITMASK FRAME".toList ++ openBraceChar :: "0,5".toList ++ [closeBraceChar]) =
      .ok [.command 0x040000000000000021] := by decide

/-! ### Map, driver, ports and selector -/

/-- V-L1 to V-L4, V-MAP. -/
theorem test_lookup : lookup pinMapEx 0 = some (pr 0 1) ∧ lookup pinMapEx 41 = some (pr 6 5) ∧
    lookup pinMapEx 20 = some (pr 3 2) ∧ lookup pinMapEx 42 = none ∧ lookup pinMapEx 255 = none := by decide
/-- V-E1 to V-E4, V-E7. -/
theorem test_driver : driveHigh 3 allZ = #v[.z, .z, .z, .high, .z, .z, .z] ∧
    driveLow 2 #v[.z, .z, .z, .high, .z, .z, .z] = #v[.z, .z, .low, .high, .z, .z, .z] ∧
    triState 3 #v[.z, .z, .low, .high, .z, .z, .z] = #v[.z, .z, .low, .z, .z, .z, .z] ∧
    allOff #v[.high, .low, .z, .z, .z, .z, .z] = allZ ∧
    drivePair (pr 6 5) allZ = #v[.z, .z, .z, .z, .z, .low, .high] := by decide
/-- R83 of `ZHZZZLZ`. -/
theorem test_pin_port :
    (st 0 0 0 0 false false false none false #v[.z, .high, .z, .z, .z, .low, .z]).pinOe = 0b0100010#7 ∧
    (st 0 0 0 0 false false false none false #v[.z, .high, .z, .z, .z, .low, .z]).pinOut = 0b0000010#7 := by decide
/-- V-S1, V-S5, V-S7, V-S8, V-S11, V-S13. -/
theorem test_findNext : findNext 0x421 0 = some 0 ∧ findNext 0x421 11 = some 0 ∧ findNext 0 7 = none ∧
    findNext 0x20000000000 0 = some 41 ∧ findNext 0x40 7 = some 6 ∧ findNext 0x100000000 31 = some 32 := by decide
/-- V-S5 and V-S15 in the two other forms. -/
theorem test_findNext_forms : findNextRotated 0x421 11 = some 0 ∧ findNextSplit 0x421 11 = some 0 ∧
    findNextRotated 0x20000100000 21 = some 41 ∧ findNextSplit 0x20000100000 21 = some 41 := by decide

/-! ### Instructions, one step each -/

/-- V-T2, V-T5, V-T8: wraps. -/
theorem test_tick_selects :
    tickWith pinMapEx (st 0x421 128 1 255 true false false (some (pr 0 1)) false allZ) =
      st 0x421 128 6 0 true false false (some (pr 0 6)) true #v[.high, .z, .z, .z, .z, .z, .low] ∧
    tickWith pinMapEx (st 0 128 17 255 true false false (some (pr 0 1)) false allZ) =
      st 0 128 17 0 true false false none false allZ ∧
    tickWith pinMapEx (st 0x10000 9 17 255 true false false none false allZ) =
      st 0x10000 9 17 0 true false false (some (pr 2 5)) true #v[.z, .z, .high, .z, .z, .low, .z] := by decide

/-- V-T4, V-T10, V-T11, V-T13: the end of the on-window, DIRECT, the fast period. -/
theorem test_tick_gates :
    tickWith pinMapEx (st 0x421 128 1 127 true false false (some (pr 0 1)) true #v[.high, .low, .z, .z, .z, .z, .z]) =
      st 0x421 128 1 128 true false false (some (pr 0 1)) false allZ ∧
    tickWith pinMapEx (st 0x421 128 1 255 false false true (some (pr 3 4)) false allZ) =
      st 0x421 128 1 0 false false true (some (pr 3 4)) true #v[.z, .z, .z, .high, .low, .z, .z] ∧
    tickWith pinMapEx
        (st 0x3FFFFFFFFFF 64 12 63 true true false (some (pr 1 6)) true #v[.z, .high, .z, .z, .z, .z, .low]) =
      st 0x3FFFFFFFFFF 64 13 0 true true false (some (pr 2 0)) true #v[.low, .z, .high, .z, .z, .z, .z] ∧
    tickWith pinMapEx (st 0x3 250 1 200 true true false (some (pr 0 1)) true #v[.high, .low, .z, .z, .z, .z, .z]) =
      st 0x3 250 2 0 true true false (some (pr 0 2)) true #v[.high, .z, .low, .z, .z, .z, .z] := by decide

/-- V-M2's state before. -/
def mux5 : State := st 0x421 128 6 17 true false false (some (pr 0 6)) true #v[.high, .z, .z, .z, .z, .z, .low]

/-- One step of `mux5` with a command word on the port, as fields. -/
def stepped (s : State) (C : Nat) : Option State := after (step (s.withFetchWord 72 C))

/-- V-D1, with the response. -/
theorem test_setBrightness : stepped mux5 0x010000000000000080 = some { mux5 with bright := 128, rsp := some 0 } ∧
    stepped mux5 0x010000000000000000 = some { mux5 with bright := 0, rsp := some 0 } := by decide
/-- V-D3. -/
theorem test_getBrightness : stepped { mux5 with bright := 77 } 0x020000000000000000 =
    some { mux5 with bright := 77, rsp := some 0x4D } := by decide
/-- V-D6, V-D9. -/
theorem test_setLedBit :
    stepped { mux5 with mask := 0x3FFFFFFFFFF } 0x030000000000000029 =
      some { mux5 with mask := 0x1FFFFFFFFFF, rsp := some 0 } ∧
    stepped { mux5 with mask := 0 } 0x030000000000000120 = some { mux5 with mask := 0x100000000, rsp := some 0 } := by
  decide
/-- V-D7, V-D8: no-ops. -/
theorem test_setLedBit_out_of_range : stepped mux5 0x03000000000000002A = some { mux5 with rsp := some 0 } ∧
    stepped mux5 0x0300000000000001C8 = some { mux5 with rsp := some 0 } := by decide
/-- V-D11. -/
theorem test_replaceBitmask : stepped mux5 0x04FFFFFFFFDEADBEEF =
    some { mux5 with mask := 0x3FFDEADBEEF, rsp := some 0 } := by decide
/-- V-D12. -/
theorem test_readBitmask : stepped { mux5 with mask := 0x3FFDEADBEEF } 0x050000000000000000 =
    some { mux5 with mask := 0x3FFDEADBEEF, rsp := some 0x3FFDEADBEEF } := by decide
/-- V-D16: the LED stays lit. -/
theorem test_clearAll : stepped mux5 0x060000000000000000 = some { mux5 with mask := 0, rsp := some 0 } := by decide
/-- V-D14. -/
theorem test_setAll : stepped mux5 0x070000000000000000 = some { mux5 with mask := 0x3FFFFFFFFFF, rsp := some 0 } := by
  decide
/-- V-M2. -/
theorem test_enableMultiplex : stepped mux5 0x080000000000000002 =
    some { mux5 with mask := 0x2, cursor := 0, cnt := 0, rsp := some 0 } := by decide
/-- V-M4. -/
theorem test_disableMultiplex : stepped mux5 0x090000000000000000 =
    some { st 0x421 128 6 0 false false false none false allZ with rsp := some 0 } := by decide
/-- V-M6, V-M7. -/
theorem test_directDrive_on :
    directDriveWith pinMapEx 41 true (st 0 16 0 99 false true false none false allZ) =
      { st 0 16 0 0 false true true (some (pr 6 5)) false allZ with rsp := some 0 } ∧
    directDriveWith pinMapEx 3 true
        (st 0x20000100000 200 0 88 true false false (some (pr 6 5)) true #v[.z, .z, .z, .z, .z, .low, .high]) =
      { st 0x20000100000 200 0 0 false false true (some (pr 0 4)) false allZ with rsp := some 0 } := by decide
/-- V-M11, V-M10. -/
theorem test_directDrive_off : stepped mux5 0x0A0000000000000000 =
      some { st 0x421 128 6 0 true false false none false allZ with rsp := some 0 } ∧
    stepped mux5 0x0A000000000000012A = some { mux5 with rsp := some 0 } := by decide
/-- V-M12. -/
theorem test_setFastPwmMode : stepped { mux5 with cnt := 200 } 0x0B0000000000000001 =
    some { mux5 with cnt := 200, fast := true, rsp := some 0 } := by decide
/-- V-M13. -/
theorem test_reserved_opcode : stepped mux5 0x0C0000000000000000 = some { mux5 with rsp := some 0 } ∧
    stepped mux5 0xFFFFFFFFFFFFFFFFFF = some { mux5 with rsp := some 0 } := by decide
/-- The tick port: a step with the table's `TICK` word counts. -/
theorem test_tick_port : after (step (mux5.withFetchWord 8 1)) = some { mux5 with cnt := 18 } := by decide

/-- V-R3, V-R4's order: the command of a clock before its tick (the cursor passes LED 1, the new mask's). -/
theorem test_command_before_tick :
    ((after (step { st 0x1 9 1 255 true false false none false allZ with
      inputs := [{ cmdClock 0x040000000000000002 with tick := true }] })).map fun t => (t.mask, t.cursor, t.cnt, t.rsp)) =
      some (0x2, 2, 0, some 0) := by decide

/-! ### Witnesses of the statements' hypotheses -/

/-- MUX, LED 5 selected and driven. -/
def lit : State :=
  { st 0x421 128 6 3 true false false (some (pinMap 5)) true (pairPins (pinMap 5)) with
    inputs := [cmdClock 0x090000000000000000] }

/-- MUX, LED 5 selected at brightness 0, undriven. -/
def dim : State := st 0x421 0 6 3 true false false (some (pinMap 5)) false allZ

/-- IDLE. -/
def idle : State := st 0x421 128 6 255 false false false none false allZ

/-- DIRECT, LED 41 selected, the fast period, the counter at its end. -/
def direct : State := st 0 255 41 63 false true true (some (pinMap 41)) true (pairPins (pinMap 41))

theorem mapped (i : LedIndex) (p : PinPair) (h : some (pinMap i) = some p) :
    p.anode ≠ p.cathode ∧ ∃ j, pinMap j = p := by
  obtain rfl := Option.some.inj h
  exact ⟨(permuted_example_valid Config.wiring).anode_ne_cathode i, i, rfl⟩

theorem top_zero (m : Mask) (k : Nat) (h : 10 ≤ k) : (maskWord1 m).getLsbD k = false := by
  simp [maskWord1, Nat.not_lt.mpr h]

theorem lit_inv : Inv lit where
  cursor_in_range := by decide
  modes_exclusive := by decide
  driven_selected := fun _ => nofun
  pins_follow := rfl
  top_bits_zero := top_zero _
  selection_mapped := mapped 5
  direct_selected := nofun
  idle_dark := nofun

theorem dim_inv : Inv dim where
  cursor_in_range := by decide
  modes_exclusive := by decide
  driven_selected := nofun
  pins_follow := rfl
  top_bits_zero := top_zero _
  selection_mapped := mapped 5
  direct_selected := nofun
  idle_dark := nofun

theorem idle_inv : Inv idle where
  cursor_in_range := by decide
  modes_exclusive := by decide
  driven_selected := nofun
  pins_follow := rfl
  top_bits_zero := top_zero _
  selection_mapped := nofun
  direct_selected := nofun
  idle_dark := fun _ => ⟨rfl, rfl, rfl⟩

theorem direct_inv : Inv direct where
  cursor_in_range := by decide
  modes_exclusive := by decide
  driven_selected := fun _ => nofun
  pins_follow := rfl
  top_bits_zero := top_zero _
  selection_mapped := mapped 41
  direct_selected := fun _ => ⟨nofun, rfl⟩
  idle_dark := nofun

/-- V-R5's clock. -/
theorem witness_ResetClockOverridesCommandAndTick :
    ∃ c, { mux5 with inputs := [c, Clock.quiet] }.inputs = c :: [Clock.quiet] ∧ c.rst = true ∧ c.cmdValid = true ∧
      c.tick = true :=
  ⟨{ rst := true, tick := true, cmdValid := true, cmd := 0x010000000000000080 }, rfl, rfl, rfl, rfl⟩

theorem witness_EncodeOfDecodedClearsIgnoredBits :
    decodeCommand 0x03FFFFFFFFFFFFFE05 = .ok (.setLedBit 5 false) := by decide

theorem witness_IgnoredOperandBitsDoNotMatter :
    decodeCommand 0x03FFFFFFFFFFFFFE05 = .ok (.setLedBit 5 false) ∧
    (0x030000000000000005 : CmdWord).extractLsb' 64 8 = (0x03FFFFFFFFFFFFFE05 : CmdWord).extractLsb' 64 8 ∧
    (0x030000000000000005 : CmdWord) &&& (Instr.setLedBit 5 false).format.fieldBits =
      0x03FFFFFFFFFFFFFE05 &&& (Instr.setLedBit 5 false).format.fieldBits := by decide

theorem witness_ReservedOpcodeWritesNothing :
    ((0x00FFFFFFFFFFFFFFFF : CmdWord).extractLsb' 64 8).toNat = 0 ∧
    0x0C ≤ ((0x0C0000000000000000 : CmdWord).extractLsb' 64 8).toNat ∧
    0x0C ≤ ((0xFF0000000000000000 : CmdWord).extractLsb' 64 8).toNat := by decide

theorem witness_SerialisedFramePutsEachLedInItsByte : 41 < 64 ∧ 41 < 42 ∧ 63 < 64 ∧ ¬ 63 < 42 := by decide

theorem witness_PseudoInstructionsExpand : (∀ i ∈ [0, 31, 32, 41, 63], i < 64) ∧ (∃ i ∈ [0, 64], 64 ≤ i) ∧
    2 ^ 72 - 1 < 2 ^ 72 ∧ 2 ^ 72 ≤ 2 ^ 72 ∧ 255 < 256 ∧ (255 ≤ 255 ∧ 1 < 2) ∧ 0xFFFFFFFF < 0x100000000 ∧
    0xFFFFFFFF ≤ 0xFFFFFFFF := by decide

theorem witness_FrameBitIsItsLed : 10 ≤ 10 ∧ (31 : LedIndex).val < 32 ∧ ¬ (32 : LedIndex).val < 32 := by decide

theorem witness_SelectionRegisterFormIsCanonical : idle.selValid = 0 ∧ lit.selValid = 1 := ⟨rfl, rfl⟩

theorem witness_SetBrightnessWritesBrightAndActsAtNextTick :
    (0x01FFFFFFFFFFFFFFFF : CmdWord).extractLsb' 64 8 = 0x01 := by decide
theorem witness_GetBrightnessAnswersBright : (0x020000000000000001 : CmdWord).extractLsb' 64 8 = 0x02 := by decide
theorem witness_SetLedBitWritesThatCellOnly : (0x030000000000000129 : CmdWord).extractLsb' 64 8 = 0x03 ∧
    (41 : LedIndex).val = (41 : Byte).toNat ∧ ∀ j : LedIndex, j.val ≠ (42 : Byte).toNat := by decide
theorem witness_ReplaceBitmaskInstallsTheFrame : (0x04FFFFFFFFDEADBEEF : CmdWord).extractLsb' 64 8 = 0x04 := by decide
theorem witness_ReadBitmaskAnswersEveryCell : (0x050000000000000000 : CmdWord).extractLsb' 64 8 = 0x05 ∧ 42 ≤ 42 := by
  decide
theorem witness_ClearAllEmptiesTheBitmask : (0x060000000000000000 : CmdWord).extractLsb' 64 8 = 0x06 := by decide
theorem witness_SetAllFillsTheBitmask : (0x070000000000000000 : CmdWord).extractLsb' 64 8 = 0x07 := by decide
theorem witness_EnableMultiplexInstallsAndRestarts : (0x080000020080000001 : CmdWord).extractLsb' 64 8 = 0x08 := by decide
theorem witness_DisableMultiplexBlanksAtOnce : (0x090000000000000000 : CmdWord).extractLsb' 64 8 = 0x09 := by decide
theorem witness_DirectDriveSelectsOrClears : (0x0A0000000000000129 : CmdWord).extractLsb' 64 8 = 0x0A ∧
    (0 : Byte).toNat < 42 ∧ (41 : Byte).toNat < 42 := by decide
theorem witness_SetFastPwmModeWritesFastOnly : (0x0B0000000000000001 : CmdWord).extractLsb' 64 8 = 0x0B := by decide

theorem witness_OutOfRangeIndexIsANoOp : 42 ≤ (42 : Byte).toNat ∧ 42 ≤ (255 : Byte).toNat := by decide

theorem witness_SetLedBitCommutesAndIsIdempotent : (41 : Byte) ≠ 42 := by decide

theorem witness_ModeTransitionTable : (Inv idle ∧ idle.mode = some .idle) ∧ (Inv lit ∧ lit.mode = some .mux) ∧
    Inv direct ∧ direct.mode = some .direct := ⟨⟨idle_inv, rfl⟩, ⟨lit_inv, rfl⟩, direct_inv, rfl⟩

theorem witness_OnlyModeSwitchCommandsChangeTheMode :
    ∃ t, exec .disableMultiplex lit = .next t ∧ t.mode ≠ lit.mode := ⟨_, rfl, nofun⟩

theorem witness_DirectDriveLightsAtTheNextTick :
    2 ≤ { idle with bright := 2 }.bright.toNat ∧ { idle with bright := 1 }.bright.toNat < 2 := by decide

/-- One state for each clause: LED found at a wrap, nothing found at a wrap, no wrap at 254, no wrap in fast mode at 62,
released at the end of the window, left driven. -/
theorem witness_TickCountsSelectsAndGates :
    ((if mux5.fast then 64 else 256) ≤ { mux5 with cnt := 255 }.cnt.toNat + 1 ∧ mux5.muxEn = true ∧
      findNext mux5.mask mux5.cursor = some 10) ∧
    findNext { mux5 with mask := 0 }.mask mux5.cursor = none ∧
    ¬ 256 ≤ { mux5 with cnt := 254 }.cnt.toNat + 1 ∧ ¬ 64 ≤ (62 : Byte).toNat + 1 ∧
    ((tickWith pinMap { mux5 with cnt := 127 }).ledOn = false ∧ mux5.ledOn = true) ∧
    (tickWith pinMap { mux5 with cnt := 126 }).ledOn = mux5.ledOn ∧
    (tickWith pinMap { mux5 with ledOn := false, pins := allZ }).ledOn = true := by decide

theorem witness_TickIgnoresOldPinsAndDrivenFlag : lit.pins = shownPins lit.sel lit.ledOn ∧ allZ = shownPins lit.sel false ∧
    ∃ t, exec .tick lit = .next t := ⟨rfl, rfl, _, rfl⟩

theorem witness_SlotStateAfterTick : Inv lit ∧ Inv dim ∧ Inv idle ∧
    (tickWith pinMap lit).slotState = some .driving ∧ (tickWith pinMap dim).slotState = some .idleSelected ∧
    (tickWith pinMap idle).slotState = some .noneSelected := ⟨lit_inv, dim_inv, idle_inv, by decide, by decide, by decide⟩

theorem witness_CounterStaysBelowThePeriod : (∃ t, exec .tick direct = .next t) ∧
    (∃ t, exec .clearAll direct = .next t) ∧ direct.cnt.toNat < direct.period ∧ idle.cnt.toNat < idle.period ∧
    Instr.clearAll ≠ .setFastPwmMode true := ⟨⟨_, rfl⟩, ⟨_, rfl⟩, by decide, by decide, nofun⟩

/-- A slot's first tick left `lit` with the counter at 0; its last tick is the 255th after it. -/
def slot : State := { lit with cnt := 0 }

theorem slot_inv : Inv slot where
  cursor_in_range := by decide
  modes_exclusive := by decide
  driven_selected := fun _ => nofun
  pins_follow := rfl
  top_bits_zero := top_zero _
  selection_mapped := mapped 5
  direct_selected := nofun
  idle_dark := nofun

theorem witness_SlotIsLitForItsFirstBrightTicks : Inv slot ∧ slot.cnt = 0 ∧ slot.ledOn = slot.wantOn ∧
    0 < slot.period ∧ 255 < slot.period := ⟨slot_inv, rfl, by decide, by decide, by decide⟩

theorem witness_EnableMultiplexSelectsOnePeriodLater : 255 < idle.period ∧ 63 < direct.period ∧ maskOfFrame 0 0 = 0 ∧
    maskBit (maskOfFrame 0x421 0) 0 = true ∧ (∀ j < (0 : LedIndex), maskBit (maskOfFrame 0x421 0) j = false) ∧
    maskBit (maskOfFrame 0 0x200) 41 = true ∧ ∀ j < (41 : LedIndex), maskBit (maskOfFrame 0 0x200) j = false := by decide

theorem witness_IdleTicksOnlyCount : Inv idle ∧ idle.mode = some .idle ∧ idle.cnt.toNat < idle.period :=
  ⟨idle_inv, rfl, by decide⟩

theorem witness_FindNextIsTheNearestEnabledLed : (0 : BitVec 6).toNat ≤ 41 ∧ (41 : BitVec 6).toNat ≤ 41 ∧
    maskBit 0x1 0 = true := by decide
theorem witness_PriorityEncoderFormsAgree : (0 : BitVec 6).toNat ≤ 41 ∧ (41 : BitVec 6).toNat ≤ 41 := by decide
theorem witness_SweepVisitsEveryEnabledLedOnce : (11 : BitVec 6).toNat ≤ 41 ∧ popCount 0x421 = 3 ∧
    sweep 0x421 3 11 = [0, 5, 10] := by decide

theorem witness_PinMapIsABijectionOntoDistinctPairs : (0 : LedIndex) ≠ 41 ∧ (pr 6 5).anode ≠ (pr 6 5).cathode := by decide
theorem witness_LookupIsTheMapInRange : (41 : Byte).toNat < 42 ∧ 42 ≤ (42 : Byte).toNat := by decide
theorem witness_DriverPrimitivesWriteTheirPins : (pr 6 5).anode ≠ (pr 6 5).cathode ∧ (0 : Pin) ≠ (pr 6 5).anode ∧
    (0 : Pin) ≠ (pr 6 5).cathode := by decide

theorem witness_ExactlyTheSelectedLedIsDriven : (Inv lit ∧ lit.ledOn = true) ∧ Inv dim ∧ dim.ledOn = false :=
  ⟨⟨lit_inv, rfl⟩, dim_inv, rfl⟩

theorem witness_StepRunsTheDecodedInstruction :
    (lit.inputs = cmdClock 0x090000000000000000 :: [] ∧ (cmdClock 0x090000000000000000).cmdValid = true ∧
      decode (.command (cmdClock 0x090000000000000000).cmd) = .ok .disableMultiplex) ∧
    decode (.tickPort (BitVec.ofBool { Clock.quiet with tick := true }.tick)) = .ok .tick := by decide

theorem witness_CommandBeforeTickInOneClock :
    ∃ c : Clock, { lit with inputs := [c] }.inputs = c :: [] ∧ c.rst = false ∧ c.cmdValid = true ∧ c.tick = true ∧
      decodeCommand c.cmd = .ok .disableMultiplex :=
  ⟨{ cmdClock 0x090000000000000000 with tick := true }, rfl, rfl, rfl, rfl, by decide⟩

theorem witness_StepWithoutAnInstruction : { idle with inputs := [Clock.quiet] }.inputs = Clock.quiet :: [] ∧
    Clock.quiet.cmdValid = false ∧ idle.inputs = [] ∧
    decodeCommand (cmdClock 0xFF0000000000000000).cmd = .error (.reservedOpcode 0xFF) := by decide

theorem witness_ResponseFollowsExactlyACommand :
    lit.inputs = cmdClock 0x090000000000000000 :: [] ∧ ∃ t, step lit = .next t := ⟨rfl, _, rfl⟩

/-- A change of each register. -/
theorem witness_OnlyItsWritersChangeARegister :
    (∃ t, exec .setAll mux5 = .next t ∧ t.mask ≠ mux5.mask) ∧
    (∃ t, exec (.setBrightness 0) mux5 = .next t ∧ t.bright ≠ mux5.bright) ∧
    (∃ t, exec (.enableMultiplex 0 0) mux5 = .next t ∧ t.cursor ≠ mux5.cursor ∧ t.cnt ≠ mux5.cnt) ∧
    (∃ t, exec .disableMultiplex mux5 = .next t ∧ t.muxEn ≠ mux5.muxEn ∧ t.sel ≠ mux5.sel ∧ t.ledOn ≠ mux5.ledOn ∧
      t.pins ≠ mux5.pins) ∧
    (∃ t, exec (.setFastPwmMode true) mux5 = .next t ∧ t.fast ≠ mux5.fast) ∧
    (∃ t, exec (.directDrive 41 true) mux5 = .next t ∧ t.direct ≠ mux5.direct) ∧
    ∃ t, exec .tick { mux5 with cnt := 255 } = .next t ∧ t.cursor ≠ mux5.cursor :=
  ⟨⟨_, rfl, by decide⟩, ⟨_, rfl, by decide⟩, ⟨_, rfl, by decide, by decide⟩,
    ⟨_, rfl, by decide, by decide, by decide, by decide⟩, ⟨_, rfl, by decide⟩, ⟨_, rfl, by decide⟩, ⟨_, rfl, by decide⟩⟩

theorem witness_NoHostCommandDrivesAPin : Instr.disableMultiplex ≠ .tick ∧ ∃ t, exec .disableMultiplex lit = .next t :=
  ⟨nofun, _, rfl⟩

theorem witness_StepKeepsTheInvariants : Inv lit ∧ ∃ t, step lit = .next t := ⟨lit_inv, _, rfl⟩

theorem witness_EveryRunIsSafe : Inv lit ∧ Inv dim ∧ Inv idle ∧ Inv direct := ⟨lit_inv, dim_inv, idle_inv, direct_inv⟩

end Sys2Proof.Machine.Tests
end

section
/-! Completion: no instruction, event, clock or step ends in a fault or a refusal (spec/00_scope.md R7,
spec/60_exceptions.md R180). One lemma per layer, each from the layer below. -/

namespace Sys2Proof.Machine

/-- Two operations in sequence complete when the first does and the second does from every state. -/
theorem andThen_completes {o : Host.Outcome State Fault Refusal} {f : State → Host.Outcome State Fault Refusal}
    (ho : ∃ t, o = .next t) (hf : ∀ t, ∃ u, f t = .next u) : ∃ u, andThen o f = .next u := by
  obtain ⟨t, rfl⟩ := ho
  rw [andThen_next]
  exact hf t

/-- Both cases of `SET_LED_BIT`, an LED's index and an ignored one (R63), have a next state; every other operation is a
single state update. -/
theorem exec_completes (i : Instr) (s : State) : ∃ t, exec i s = .next t := by
  cases i with
  | setLedBit index state =>
    rcases execSetLedBit_cases index state s with ⟨_, -, h⟩ | ⟨-, h⟩
    · exact ⟨_, h⟩
    · exact ⟨_, h⟩
  | setBrightness | getBrightness | replaceBitmask | readBitmask | clearAll | setAll => exact ⟨_, rfl⟩
  | enableMultiplex | disableMultiplex | directDrive | setFastPwmMode => exact ⟨_, rfl⟩
  | tick => exact ⟨_, rfl⟩

theorem runCommand_of_decode {C : CmdWord} {i : Instr} (h : decodeCommand C = .ok i) (s : State) :
    runCommand C s = exec i s := by
  rw [runCommand, h]

theorem runCommand_of_reject {C : CmdWord} {r : Rejection} (h : decodeCommand C = .error r) (s : State) :
    runCommand C s = .next (s.respond 0) := by
  rw [runCommand, h, execReserved]

/-- A word the decoder rejects is accepted as a no-op (R164), so every word completes. -/
theorem runCommand_completes (C : CmdWord) (s : State) : ∃ t, runCommand C s = .next t := by
  cases h : decodeCommand C with
  | ok i =>
    rw [runCommand_of_decode h]
    exact exec_completes i s
  | error r => exact ⟨_, runCommand_of_reject h s⟩

theorem runEvent_completes (e : Event) (s : State) : ∃ t, runEvent e s = .next t := by
  cases e with
  | tick => exact exec_completes .tick s
  | cmd C => exact runCommand_completes C s

theorem runEvents_completes (es : List Event) (s : State) : ∃ t, runEvents es s = .next t := by
  induction es generalizing s with
  | nil => exact ⟨s, rfl⟩
  | cons e es ih => exact andThen_completes (runEvent_completes e s) ih

theorem runClock_completes (c : Clock) (s : State) : ∃ t, runClock c s = .next t := by
  unfold runClock
  split
  · exact ⟨_, rfl⟩
  · exact runEvents_completes c.events s

/-- Past the end of the queue a step is a quiet clock (log 3). -/
theorem step_of_no_inputs {s : State} (h : s.inputs = []) : step s = runClock Clock.quiet (s.beginClock []) := by
  rw [step, nextClock, h]

theorem step_of_inputs {s : State} {c : Clock} {rest : List Clock} (h : s.inputs = c :: rest) :
    step s = runClock c (s.beginClock rest) := by
  rw [step, nextClock, h]

theorem step_completes (s : State) : ∃ t, step s = .next t := by
  cases h : s.inputs with
  | nil =>
    rw [step_of_no_inputs h]
    exact runClock_completes _ _
  | cons c rest =>
    rw [step_of_inputs h]
    exact runClock_completes _ _

/-- Settles O48: a step is one clock, a clock is a reset or its events in order, and each event is one instruction or the
no-op of a reserved opcode. -/
theorem everyStepCompletes : Obligations.EveryStepCompletes :=
  ⟨step_completes, exec_completes⟩

end Sys2Proof.Machine
end

section
/-! What the instructions do, as one inversion lemma for `exec` and one for the tick, with the fields the gating keeps. The
proofs about single instructions below go through these. -/

namespace Sys2Proof.Machine

/-! ### The tick -/

section Gate

variable (s : State)

@[simp] theorem State.gate_cursor : s.gate.cursor = s.cursor := by rw [gate_keeps]; rfl
@[simp] theorem State.gate_cnt : s.gate.cnt = s.cnt := by rw [gate_keeps]; rfl
@[simp] theorem State.gate_muxEn : s.gate.muxEn = s.muxEn := by rw [gate_keeps]; rfl
@[simp] theorem State.gate_direct : s.gate.direct = s.direct := by rw [gate_keeps]; rfl
@[simp] theorem State.gate_sel : s.gate.sel = s.sel := by rw [gate_keeps]; rfl
@[simp] theorem State.gate_ledOn : s.gate.ledOn = s.wantOn := by rw [gate_keeps]; rfl

end Gate

/-- A tick counts and gates; at a wrap with `MUX_EN = 1` it selects the LED found in between, or clears the selection. -/
theorem tickWith_cases (pm : Wiring) (s : State) :
    (∃ i, s.wraps = true ∧ s.muxEn = true ∧ findNext s.mask s.cursor = some i ∧
      tickWith pm s = ((s.count.release.setSel (some (pm i))).setCursor (cursorPast i)).gate) ∨
    (s.wraps = true ∧ s.muxEn = true ∧ findNext s.mask s.cursor = none ∧ tickWith pm s = (s.count.setSel none).gate) ∨
    (¬ (s.wraps = true ∧ s.muxEn = true) ∧ tickWith pm s = s.count.gate) := by
  rw [tickWith_eq]
  split
  next hadv =>
    obtain ⟨hwrap, hmux⟩ := Bool.and_eq_true_iff.mp hadv
    rcases selectNext_cases pm s.count with ⟨i, hfind, hsel⟩ | ⟨hfind, hsel⟩
    · exact .inl ⟨i, hwrap, hmux, hfind, by rw [hsel]⟩
    · exact .inr (.inl ⟨hwrap, hmux, hfind, by rw [hsel]⟩)
  next hadv => exact .inr (.inr ⟨fun h => hadv (Bool.and_eq_true_iff.mpr h), rfl⟩)

theorem tickWith_cnt (pm : Wiring) (s : State) : (tickWith pm s).cnt = if s.wraps then 0 else s.cnt + 1 := by
  rcases tickWith_cases pm s with ⟨i, -, -, -, h⟩ | ⟨-, -, -, h⟩ | ⟨-, h⟩ <;> simp [h]

theorem tickWith_sel_ne {pm : Wiring} {s : State} (hne : (tickWith pm s).sel ≠ s.sel) :
    s.wraps = true ∧ s.muxEn = true := by
  rcases tickWith_cases pm s with ⟨i, hwrap, hmux, -, -⟩ | ⟨hwrap, hmux, -, -⟩ | ⟨-, h⟩
  · exact ⟨hwrap, hmux⟩
  · exact ⟨hwrap, hmux⟩
  · simp [h] at hne

theorem tickWith_cursor_ne {pm : Wiring} {s : State} (hne : (tickWith pm s).cursor ≠ s.cursor) :
    s.wraps = true ∧ s.muxEn = true ∧ findNext s.mask s.cursor ≠ none := by
  rcases tickWith_cases pm s with ⟨i, hwrap, hmux, hfind, -⟩ | ⟨-, -, -, h⟩ | ⟨-, h⟩
  · exact ⟨hwrap, hmux, by simp [hfind]⟩
  · simp [h] at hne
  · simp [h] at hne

/-! ### Every instruction -/

/-- The effects an instruction can have on a state, one constructor per shape of the next state. Where several instructions
share a shape, the constructor says of them what separates them from the writers of other registers. -/
inductive Effect (s : State) : Instr → State → Prop
  /-- A read, or an index of 42 or more (spec/20_memory.md R63): only the response. -/
  | answer (i : Instr) (r : Frame64) (h : i ≠ .tick) : Effect s i (s.respond r)
  | bright (value : Byte) : Effect s (.setBrightness value) ((s.setBright value).respond 0)
  | mask (i : Instr) (m : Mask) (h : i.mnemonic ∈ ["SET_LED_BIT", "REPLACE_BITMASK", "CLEAR_ALL", "SET_ALL"]) :
      Effect s i ((s.setMask m).respond 0)
  | fast (enable : Bool) : Effect s (.setFastPwmMode enable) ((s.setFast enable).respond 0)
  | enable (w0 w1 : Word32) : Effect s (.enableMultiplex w0 w1)
      { s with mask := maskOfFrame w0 w1, muxEn := true, cursor := 0, direct := false, cnt := 0, rsp := some 0 }
  | disable : Effect s .disableMultiplex
      { s with muxEn := false, sel := none, ledOn := false, pins := allZ, direct := false, cnt := 0, rsp := some 0 }
  | directOn (i : LedIndex) : Effect s (.directDrive (indexOfLed i) true)
      { s with
        sel := some (pinMap i), ledOn := false, pins := allZ, direct := true, muxEn := false, cnt := 0, rsp := some 0 }
  | directOff (i : LedIndex) : Effect s (.directDrive (indexOfLed i) false)
      { s with sel := none, ledOn := false, pins := allZ, direct := false, cnt := 0, rsp := some 0 }
  | tick : Effect s .tick (tickWith pinMap s)

theorem exec_disableMultiplex (s : State) : exec .disableMultiplex s = .next
    { s with muxEn := false, sel := none, ledOn := false, pins := allZ, direct := false, cnt := 0, rsp := some 0 } := by
  change execDisableMultiplex s = _
  rw [execDisableMultiplex, release_eq]
  rfl

/-- The inversion lemma of `exec`: whatever an instruction answers, it has one of the effects. -/
theorem exec_effect {i : Instr} {s t : State} (h : exec i s = .next t) : Effect s i t := by
  cases i with
  | setBrightness value => cases h; exact .bright value
  | getBrightness => cases h; exact .answer _ _ nofun
  | setLedBit index state =>
    change execSetLedBit index state s = _ at h
    rcases execSetLedBit_cases index state s with ⟨_, -, hexec⟩ | ⟨-, hexec⟩
    · cases hexec.symm.trans h; exact .mask _ _ (by simp [Instr.mnemonic])
    · cases hexec.symm.trans h; exact .answer _ _ nofun
  | replaceBitmask w0 w1 => cases h; exact .mask _ _ (by simp [Instr.mnemonic])
  | readBitmask => cases h; exact .answer _ _ nofun
  | clearAll => cases h; exact .mask _ _ (by simp [Instr.mnemonic])
  | setAll => cases h; exact .mask _ _ (by simp [Instr.mnemonic])
  | enableMultiplex w0 w1 => cases h; exact .enable w0 w1
  | disableMultiplex => cases (exec_disableMultiplex s).symm.trans h; exact .disable
  | directDrive index state =>
    change Host.Outcome.next (directDriveWith pinMap index state s) = _ at h
    cases h
    rcases directDriveWith_cases pinMap index state s with ⟨led, rfl, rfl, hd⟩ | ⟨led, rfl, rfl, hd⟩ | ⟨-, hd⟩
    · rw [hd]; exact .directOn led
    · rw [hd]; exact .directOff led
    · rw [hd]; exact .answer _ _ nofun
  | setFastPwmMode enable => cases h; exact .fast enable
  | tick => cases h; exact .tick

@[simp] theorem indexOfLed_toNat_le (i : LedIndex) : (indexOfLed i).toNat ≤ 41 :=
  (Nat.mod_le i.val _).trans (Nat.le_of_lt_succ i.isLt)

@[simp] theorem modeSwitch_directDrive_indexOfLed (i : LedIndex) (state : Bool) :
    modeSwitch (.directDrive (indexOfLed i) state) = true :=
  decide_eq_true (indexOfLed_toNat_le i)

end Sys2Proof.Machine
end

section
/-! The invariants I1 to I8 (spec/10_state.md R37). They are what the control registers keep among themselves, plus the
pins following the selection; the second half is open between the steps of a tick and restored by the gating. -/

namespace Sys2Proof.Machine

/-- The part of `Inv` that speaks of `CURSOR`, the mode flags and `SEL` alone. It also holds inside a tick, after the cursor
advance. -/
structure ControlInv (s : State) : Prop where
  cursor_in_range : s.cursor.toNat ≤ 41
  modes_exclusive : ¬ (s.muxEn = true ∧ s.direct = true)
  selection_mapped : ∀ p, s.sel = some p → p.anode ≠ p.cathode ∧ ∃ i, pinMap i = p
  direct_selected : s.direct = true → s.sel ≠ none
  idle_unselected : s.muxEn = false → s.direct = false → s.sel = none

theorem ControlInv.direct_eq_false {s : State} (h : ControlInv s) (hmux : s.muxEn = true) : s.direct = false :=
  Bool.eq_false_iff.mpr fun hd => h.modes_exclusive ⟨hmux, hd⟩

theorem mode_eq_idle_iff (s : State) : s.mode = some .idle ↔ s.muxEn = false ∧ s.direct = false := by
  unfold State.mode
  cases s.muxEn <;> cases s.direct <;> simp

theorem shownPins_false (sel : Option PinPair) : shownPins sel false = allZ := by
  cases sel <;> rfl

theorem shownPins_none (ledOn : Bool) : shownPins none ledOn = allZ := rfl

theorem maskWord1_getLsbD_of_le (m : Mask) {k : Nat} (h : 10 ≤ k) : (maskWord1 m).getLsbD k = false := by
  simp [maskWord1, Nat.not_lt.mpr h]

theorem pinMap_valid : Wiring.Valid pinMap := permuted_example_valid Config.wiring

/-- `Inv` is `ControlInv`, a driven selection, and pins that follow: I5 always holds, and in IDLE, where nothing is
selected, nothing is shown. -/
theorem inv_iff (s : State) :
    Inv s ↔ ControlInv s ∧ (s.ledOn = true → s.sel ≠ none) ∧ s.pins = shownPins s.sel s.ledOn := by
  constructor
  · intro h
    refine ⟨⟨h.cursor_in_range, h.modes_exclusive, h.selection_mapped, fun hd => (h.direct_selected hd).1, ?_⟩,
      h.driven_selected, h.pins_follow⟩
    exact fun hm hd => (h.idle_dark ((mode_eq_idle_iff s).mpr ⟨hm, hd⟩)).1
  · rintro ⟨hc, hdriven, hpins⟩
    refine ⟨hc.cursor_in_range, hc.modes_exclusive, hdriven, hpins, fun k => maskWord1_getLsbD_of_le s.mask,
      hc.selection_mapped, fun hd => ⟨hc.direct_selected hd, ?_⟩, fun hidle => ?_⟩
    · exact Bool.eq_false_iff.mpr fun hm => hc.modes_exclusive ⟨hm, hd⟩
    · obtain ⟨hm, hd⟩ := (mode_eq_idle_iff s).mp hidle
      have hsel : s.sel = none := hc.idle_unselected hm hd
      exact ⟨hsel, Bool.eq_false_iff.mpr fun hl => hdriven hl hsel, by rw [hpins, hsel, shownPins_none]⟩

/-- `Inv` does not speak of `BRIGHT`, `CNT`, `FAST` and the ports, and of `MASK` it says what every mask meets. -/
theorem Inv.congr {s t : State} (h : Inv s) (hcursor : t.cursor = s.cursor) (hmux : t.muxEn = s.muxEn)
    (hdirect : t.direct = s.direct) (hsel : t.sel = s.sel) (hled : t.ledOn = s.ledOn) (hpins : t.pins = s.pins) :
    Inv t := by
  obtain ⟨hc, hdriven, hfollow⟩ := (inv_iff s).mp h
  refine (inv_iff t).mpr ⟨⟨?_, ?_, ?_, ?_, ?_⟩, ?_, ?_⟩
  · rw [hcursor]; exact hc.cursor_in_range
  · rw [hmux, hdirect]; exact hc.modes_exclusive
  · rw [hsel]; exact hc.selection_mapped
  · rw [hdirect, hsel]; exact hc.direct_selected
  · rw [hmux, hdirect, hsel]; exact hc.idle_unselected
  · rw [hled, hsel]; exact hdriven
  · rw [hpins, hsel, hled]; exact hfollow

/-- A blanked state, in mode IDLE or MUX, has nothing to show. -/
theorem inv_of_blank {s : State} (hcursor : s.cursor.toNat ≤ 41) (hdirect : s.direct = false) (hsel : s.sel = none)
    (hled : s.ledOn = false) (hpins : s.pins = allZ) : Inv s := by
  refine (inv_iff s).mpr ⟨⟨hcursor, ?_, ?_, ?_, fun _ _ => hsel⟩, ?_, ?_⟩
  · simp [hdirect]
  · simp [hsel]
  · simp [hdirect]
  · simp [hled]
  · rw [hpins, hsel, shownPins_none]

theorem inv_reset (q : List Clock) : Inv (State.reset.setInputs q) :=
  inv_of_blank (Nat.zero_le 41) rfl rfl rfl rfl

/-- The gating makes the pins show what is wanted, when before it an undriven LED shows nothing and a driven selection
shows its pair. -/
theorem gate_pins {s : State} (hoff : s.ledOn = false → s.pins = allZ)
    (hon : ∀ p, s.sel = some p → s.ledOn = true → s.pins = pairPins p) : s.gate.pins = shownPins s.sel s.wantOn := by
  rcases gate_cases s with ⟨p, hwant, hled, hsel, h⟩ | ⟨hwant, -, h⟩ | ⟨hsame, h⟩
  · rw [h, State.drive_pins, hoff hled, drivePair_allZ, hsel, hwant, shownPins]
  · rw [h, State.release_pins, allOff_eq, hwant, shownPins_false]
  · rw [h]
    cases hled : s.ledOn with
    | false => rw [hsame, hled, shownPins_false, hoff hled]
    | true =>
      obtain ⟨p, hsel⟩ := Option.ne_none_iff_exists'.mp ((wantOn_iff s).mp (hsame.trans hled)).1
      rw [hsame, hled, hsel, shownPins, hon p hsel hled]

/-- The gating restores the half of `Inv` that is open inside a tick. -/
theorem gate_inv {s : State} (hc : ControlInv s) (hoff : s.ledOn = false → s.pins = allZ)
    (hon : ∀ p, s.sel = some p → s.ledOn = true → s.pins = pairPins p) : Inv s.gate := by
  refine (inv_iff _).mpr ⟨⟨?_, ?_, ?_, ?_, ?_⟩, ?_, ?_⟩
  · rw [State.gate_cursor]; exact hc.cursor_in_range
  · rw [State.gate_muxEn, State.gate_direct]; exact hc.modes_exclusive
  · rw [State.gate_sel]; exact hc.selection_mapped
  · rw [State.gate_direct, State.gate_sel]; exact hc.direct_selected
  · rw [State.gate_muxEn, State.gate_direct, State.gate_sel]; exact hc.idle_unselected
  · rw [State.gate_ledOn, State.gate_sel]; exact fun hwant => ((wantOn_iff s).mp hwant).1
  · rw [State.gate_sel, State.gate_ledOn]; exact gate_pins hoff hon

theorem Inv.pins_of_ledOn_false {s : State} (h : Inv s) (hled : s.ledOn = false) : s.pins = allZ := by
  rw [h.pins_follow, hled, shownPins_false]

/-- A cursor advance only happens with `MUX_EN = 1`, where every selection of the map and none are in order. -/
theorem tick_inv {s : State} (h : Inv s) : Inv (tickWith pinMap s) := by
  obtain ⟨hc, -, hfollow⟩ := (inv_iff s).mp h
  rcases tickWith_cases pinMap s with ⟨i, -, hmux, -, ht⟩ | ⟨-, hmux, -, ht⟩ | ⟨-, ht⟩ <;> rw [ht]
  · have hdirect := hc.direct_eq_false hmux
    refine gate_inv ⟨?_, ?_, ?_, ?_, ?_⟩ ?_ ?_
    · have := Nat.mod_lt (i.val + 1) (show 42 > 0 by decide)
      rw [State.setCursor_cursor, cursorPast_toNat]
      omega
    · simp [hdirect]
    · rintro p ⟨⟩
      exact ⟨pinMap_valid.anode_ne_cathode i, i, rfl⟩
    · simp
    · simp [hmux]
    · simp
    · simp
  · have hdirect := hc.direct_eq_false hmux
    refine gate_inv ⟨hc.cursor_in_range, hc.modes_exclusive, ?_, ?_, ?_⟩ h.pins_of_ledOn_false ?_
    · simp
    · simp [hdirect]
    · simp
    · simp
  · refine gate_inv ⟨hc.cursor_in_range, hc.modes_exclusive, hc.selection_mapped, hc.direct_selected,
      hc.idle_unselected⟩ h.pins_of_ledOn_false fun p hsel hled => ?_
    simp only [State.count_sel, State.count_ledOn, State.count_pins] at hsel hled ⊢
    rw [hfollow, hsel, hled, shownPins]

/-- The step lemma of R37 for one instruction. -/
theorem exec_keeps_inv {i : Instr} {s t : State} (hexec : exec i s = .next t) (h : Inv s) : Inv t := by
  cases exec_effect hexec with
  | answer | bright | mask | fast => exact h.congr rfl rfl rfl rfl rfl rfl
  | enable w0 w1 =>
    exact (inv_iff _).mpr ⟨⟨Nat.zero_le 41, nofun, h.selection_mapped, nofun, nofun⟩, h.driven_selected, h.pins_follow⟩
  | disable => exact inv_of_blank h.cursor_in_range rfl rfl rfl rfl
  | directOn i =>
    refine (inv_iff _).mpr ⟨⟨h.cursor_in_range, nofun, ?_, nofun, nofun⟩, nofun, (shownPins_false _).symm⟩
    rintro p ⟨⟩
    exact ⟨pinMap_valid.anode_ne_cathode i, i, rfl⟩
  | directOff i => exact inv_of_blank h.cursor_in_range rfl rfl rfl rfl
  | tick => exact tick_inv h

end Sys2Proof.Machine
end

section
/-! Two runs in step: a relation on states that every instruction and every write of the ports keeps is kept by every clock
and by every run under the same inputs. One induction for the whole machine; an invariant is the case of a run beside
itself. -/

namespace Sys2Proof.Machine

/-- Both outcomes are next states, and the relation holds between them. -/
def BothNext (R : State → State → Prop) (o p : Host.Outcome State Fault Refusal) : Prop :=
  ∃ t v, o = .next t ∧ p = .next v ∧ R t v

theorem bothNext_next {R : State → State → Prop} {s u : State} (h : R s u) : BothNext R (.next s) (.next u) :=
  ⟨s, u, rfl, rfl, h⟩

theorem BothNext.andThen {R : State → State → Prop} {o p : Host.Outcome State Fault Refusal}
    {f : State → Host.Outcome State Fault Refusal} (h : BothNext R o p)
    (hf : ∀ s u, R s u → BothNext R (f s) (f u)) : BothNext R (andThen o f) (andThen p f) := by
  obtain ⟨t, v, rfl, rfl, htv⟩ := h
  exact hf t v htv

/-- What a relation has to keep to hold along two runs under the same inputs. -/
structure Lockstep (R : State → State → Prop) : Prop where
  exec : ∀ (i : Instr) {s u : State}, R s u → BothNext R (exec i s) (exec i u)
  reset : ∀ q : List Clock, R (State.reset.setInputs q) (State.reset.setInputs q)
  setRsp : ∀ (v : Option Frame64) {s u : State}, R s u → R (s.setRsp v) (u.setRsp v)
  setInputs : ∀ (q : List Clock) {s u : State}, R s u → R (s.setInputs q) (u.setInputs q)
  same_inputs : ∀ {s u : State}, R s u → u.inputs = s.inputs

namespace Lockstep

variable {R : State → State → Prop} (hR : Lockstep R) {s u : State}

include hR

theorem runCommand (C : CmdWord) (h : R s u) : BothNext R (runCommand C s) (runCommand C u) := by
  cases hdec : decodeCommand C with
  | ok i =>
    rw [runCommand_of_decode hdec, runCommand_of_decode hdec]
    exact hR.exec i h
  | error r =>
    rw [runCommand_of_reject hdec, runCommand_of_reject hdec]
    exact bothNext_next (hR.setRsp _ h)

theorem runEvent (e : Event) (h : R s u) : BothNext R (runEvent e s) (runEvent e u) := by
  cases e with
  | tick => exact hR.exec .tick h
  | cmd C => exact hR.runCommand C h

theorem runEvents (es : List Event) (h : R s u) : BothNext R (runEvents es s) (runEvents es u) := by
  induction es generalizing s u with
  | nil => exact bothNext_next h
  | cons e es ih => exact (hR.runEvent e h).andThen fun _ _ => ih

theorem runClock (c : Clock) (h : R s u) : BothNext R (runClock c s) (runClock c u) := by
  unfold Machine.runClock
  split
  · rw [hR.same_inputs h]
    exact bothNext_next (hR.reset _)
  · exact hR.runEvents c.events h

theorem beginClock (rest : List Clock) (h : R s u) : R (s.beginClock rest) (u.beginClock rest) :=
  hR.setRsp none (hR.setInputs rest h)

theorem step (h : R s u) : BothNext R (step s) (step u) := by
  cases hs : s.inputs with
  | nil =>
    rw [step_of_no_inputs hs, step_of_no_inputs ((hR.same_inputs h).trans hs)]
    exact hR.runClock _ (hR.beginClock [] h)
  | cons c rest =>
    rw [step_of_inputs hs, step_of_inputs ((hR.same_inputs h).trans hs)]
    exact hR.runClock c (hR.beginClock rest h)

theorem run (k : Nat) (h : R s u) :
    BothNext R (Host.Core.run Sys2Proof.core k s) (Host.Core.run Sys2Proof.core k u) := by
  induction k generalizing s u with
  | zero => exact bothNext_next h
  | succ k ih =>
    obtain ⟨t, v, hs, hu, htv⟩ := hR.step h
    rw [run_succ k s t hs, run_succ k u v hu]
    exact ih htv

end Lockstep

/-! ### The invariants along a run -/

theorem inv_lockstep : Lockstep fun s u => Inv s ∧ u = s where
  exec := by
    rintro i _ s ⟨h, rfl⟩
    obtain ⟨t, ht⟩ := exec_completes i s
    exact ⟨t, t, ht, ht, exec_keeps_inv ht h, rfl⟩
  reset q := ⟨inv_reset q, rfl⟩
  setRsp := by
    rintro v _ s ⟨h, rfl⟩
    exact ⟨h.congr rfl rfl rfl rfl rfl rfl, rfl⟩
  setInputs := by
    rintro q _ s ⟨h, rfl⟩
    exact ⟨h.congr rfl rfl rfl rfl rfl rfl, rfl⟩
  same_inputs := by
    rintro _ s ⟨-, rfl⟩
    rfl

/-- A state with the invariants drives no more than the selected pair, whose pins differ by I6. -/
theorem Inv.atMostOnePair {s : State} (h : Inv s) : AtMostOnePair s.pins := by
  rw [h.pins_follow]
  cases hled : s.ledOn with
  | false => exact .inl (shownPins_false _)
  | true =>
    obtain ⟨p, hsel⟩ := Option.ne_none_iff_exists'.mp (h.driven_selected hled)
    exact .inr ⟨p, (h.selection_mapped p hsel).1, by rw [hsel, shownPins]⟩

/-- Settles O55: each instruction keeps the invariants, the ports are no part of them, and a reset clock leaves a blank
state. -/
theorem stepKeepsTheInvariants : Obligations.StepKeepsTheInvariants := by
  intro s t h hstep
  obtain ⟨t', _, ht', -, hinv, -⟩ := inv_lockstep.step ⟨h, rfl⟩
  cases ht'.symm.trans hstep
  exact hinv

/-- Settles O56, by the induction over the clocks of a run. -/
theorem everyRunIsSafe : Obligations.EveryRunIsSafe := by
  intro k s h
  obtain ⟨t, _, ht, -, hinv, -⟩ := inv_lockstep.run k ⟨h, rfl⟩
  exact ⟨t, ht, hinv, hinv.atMostOnePair⟩

/-- Settles O2: the reset state is blank. -/
theorem resetMeetsEveryInvariant : Obligations.ResetMeetsEveryInvariant :=
  inv_reset []

/-- Settles O1, register by register. -/
theorem resetLeavesEveryRegisterAtItsSpecValue : Obligations.ResetLeavesEveryRegisterAtItsSpecValue := by
  refine ⟨fun i => ?_, rfl, rfl, rfl, rfl, rfl, rfl, rfl, rfl, allZ_get, rfl, rfl⟩
  simp [State.reset, maskBit]

end Sys2Proof.Machine
end

section
/-! What is never observed (spec/10_state.md R29, R39). -/

namespace Sys2Proof.Machine

/-- The second state looks like the first: it may differ in `DIRECT`, which no operation reads; in `CURSOR` while
`MUX_EN = 0`, as `ENABLE_MULTIPLEX` writes it before it is read; and in `CNT` while also nothing is selected, as every
command that ends this writes it. -/
structure LooksLike (s u : State) : Prop where
  mask : u.mask = s.mask
  bright : u.bright = s.bright
  muxEn : u.muxEn = s.muxEn
  fast : u.fast = s.fast
  sel : u.sel = s.sel
  ledOn : u.ledOn = s.ledOn
  pins : u.pins = s.pins
  rsp : u.rsp = s.rsp
  inputs : u.inputs = s.inputs
  cursor : s.muxEn = true → u.cursor = s.cursor
  cnt : s.muxEn = true ∨ s.sel ≠ none → u.cnt = s.cnt

namespace LooksLike

theorem refl (s : State) : LooksLike s s :=
  ⟨rfl, rfl, rfl, rfl, rfl, rfl, rfl, rfl, rfl, fun _ => rfl, fun _ => rfl⟩

section Rules

variable {s u : State} (h : LooksLike s u)

include h

/-! One rule per register write. -/

theorem setMask (v : Mask) : LooksLike (s.setMask v) (u.setMask v) := { h with mask := rfl }

theorem setBright (v : Byte) : LooksLike (s.setBright v) (u.setBright v) := { h with bright := rfl }

theorem setFast (v : Bool) : LooksLike (s.setFast v) (u.setFast v) := { h with fast := rfl }

theorem setRsp (v : Option Frame64) : LooksLike (s.setRsp v) (u.setRsp v) := { h with rsp := rfl }

theorem setInputs (q : List Clock) : LooksLike (s.setInputs q) (u.setInputs q) := { h with inputs := rfl }

theorem setCursor (v : BitVec 6) : LooksLike (s.setCursor v) (u.setCursor v) := { h with cursor := fun _ => rfl }

theorem setPins (v : Pins) : LooksLike (s.setPins v) (u.setPins v) := { h with pins := rfl }

theorem setLedOn (v : Bool) : LooksLike (s.setLedOn v) (u.setLedOn v) := { h with ledOn := rfl }

theorem setDirect (v w : Bool) : LooksLike (s.setDirect v) (u.setDirect w) := { h with }

/-- Where the scheduler writes the selection, `CNT` is already the same. -/
theorem setSel (hmux : s.muxEn = true) (v : Option PinPair) : LooksLike (s.setSel v) (u.setSel v) :=
  { h with sel := rfl, cnt := fun _ => h.cnt (.inl hmux) }

theorem release : LooksLike s.release u.release := by
  unfold State.release
  rw [h.pins]
  exact (h.setPins _).setLedOn _

theorem drive (p : PinPair) : LooksLike (s.drive p) (u.drive p) := by
  unfold State.drive
  rw [h.pins]
  exact (h.setPins _).setLedOn _

/-! The steps of a tick. -/

theorem wraps_eq (hcnt : u.cnt = s.cnt) : u.wraps = s.wraps := by
  unfold State.wraps State.period
  rw [h.fast, hcnt]

/-- The gating reads `CNT` only when an LED is selected. -/
theorem wantOn_eq : u.wantOn = s.wantOn := by
  unfold State.wantOn
  rw [h.sel, h.bright]
  cases hsel : s.sel with
  | none => rfl
  | some p => rw [h.cnt (.inr (by simp [hsel]))]

theorem count : LooksLike s.count u.count :=
  { h with cnt := fun hread => by rw [State.count_cnt, State.count_cnt, h.wraps_eq (h.cnt hread), h.cnt hread] }

theorem selectNext (pm : Wiring) (hmux : s.muxEn = true) : LooksLike (s.selectNext pm) (u.selectNext pm) := by
  unfold State.selectNext
  rw [h.mask, h.cursor hmux]
  cases findNext s.mask s.cursor with
  | none => exact h.setSel hmux none
  | some i => exact (h.release.setSel hmux _).setCursor _

theorem gate : LooksLike s.gate u.gate := by
  unfold State.gate
  rw [h.wantOn_eq, h.ledOn, h.sel]
  split
  · exact h.drive _
  · exact h.release
  · exact h

/-- With `MUX_EN = 1` both states count, wrap and search alike; with `MUX_EN = 0` there is no search, and each counts for
itself. -/
theorem tickWith (pm : Wiring) : LooksLike (tickWith pm s) (tickWith pm u) := by
  rw [tickWith_eq, tickWith_eq, h.muxEn]
  cases hmux : s.muxEn with
  | true =>
    rw [h.wraps_eq (h.cnt (.inl hmux))]
    split
    · exact (h.count.selectNext pm hmux).gate
    · exact h.count.gate
  | false =>
    rw [Bool.and_false, Bool.and_false]
    exact h.count.gate

/-! The commands. -/

/-- With the period restarted the counters are the same, and any selection may be written. -/
theorem restartPeriod_setSel (v : Option PinPair) :
    LooksLike (s.restartPeriod.setSel v) (u.restartPeriod.setSel v) :=
  { h with sel := rfl, cnt := fun _ => rfl }

theorem clearMuxEn (hcnt : u.cnt = s.cnt) : LooksLike (s.setMuxEn false) (u.setMuxEn false) :=
  { h with muxEn := rfl, cursor := nofun, cnt := fun _ => hcnt }

theorem respond (v : Frame64) : LooksLike (s.respond v) (u.respond v) := h.setRsp (some v)

theorem directDriveWith (pm : Wiring) (index : Byte) (state : Bool) :
    LooksLike (directDriveWith pm index state s) (directDriveWith pm index state u) := by
  unfold Machine.directDriveWith
  cases ledOfIndex index with
  | none => exact h.respond 0
  | some _ =>
    have hsel (v : Option PinPair) := h.release.restartPeriod_setSel v
    cases state with
    | true => exact (((hsel _).setDirect true true).clearMuxEn rfl).respond 0
    | false => exact ((hsel none).setDirect false false).respond 0

theorem exec (i : Instr) : BothNext LooksLike (exec i s) (exec i u) := by
  cases i with
  | setBrightness value => exact bothNext_next ((h.setBright value).respond 0)
  | getBrightness =>
    change BothNext LooksLike (execGetBrightness s) (execGetBrightness u)
    rw [execGetBrightness, execGetBrightness, h.bright]
    exact bothNext_next (h.respond _)
  | setLedBit index state =>
    change BothNext LooksLike (execSetLedBit index state s) (execSetLedBit index state u)
    rw [execSetLedBit, execSetLedBit, h.mask]
    cases ledOfIndex index with
    | none => exact bothNext_next (h.respond 0)
    | some i => exact bothNext_next ((h.setMask _).respond 0)
  | replaceBitmask w0 w1 => exact bothNext_next ((h.setMask _).respond 0)
  | readBitmask =>
    change BothNext LooksLike (execReadBitmask s) (execReadBitmask u)
    rw [execReadBitmask, execReadBitmask, h.mask]
    exact bothNext_next (h.respond _)
  | clearAll => exact bothNext_next ((h.setMask 0).respond 0)
  | setAll => exact bothNext_next ((h.setMask maskAll).respond 0)
  | enableMultiplex w0 w1 =>
    exact bothNext_next
      { h with mask := rfl, muxEn := rfl, rsp := rfl, cursor := fun _ => rfl, cnt := fun _ => rfl }
  | disableMultiplex =>
    exact bothNext_next ((((h.release.restartPeriod_setSel none).setDirect false false).clearMuxEn rfl).respond 0)
  | directDrive index state => exact bothNext_next (h.directDriveWith pinMap index state)
  | setFastPwmMode enable => exact bothNext_next ((h.setFast enable).respond 0)
  | tick => exact bothNext_next (h.tickWith pinMap)

theorem observe_eq : u.observe = s.observe := by
  rw [State.observe, State.observe, h.pins, h.rsp]

end Rules

theorem lockstep : Lockstep LooksLike where
  exec i _ _ h := h.exec i
  reset _ := refl _
  setRsp v _ _ h := h.setRsp v
  setInputs q _ _ h := h.setInputs q
  same_inputs h := h.inputs

theorem run_observe_eq {s u : State} (h : LooksLike s u) (k : Nat) : ∃ t v : State,
    Host.Core.run Sys2Proof.core k s = .next t ∧ Host.Core.run Sys2Proof.core k u = .next v ∧
    v.observe = t.observe := by
  obtain ⟨t, v, ht, hv, htv⟩ := lockstep.run k h
  exact ⟨t, v, ht, hv, htv.observe_eq⟩

end LooksLike

/-- Settles O57: the states differ in `DIRECT` alone, so the second looks like the first. -/
theorem directFlagIsNeverObserved : Obligations.DirectFlagIsNeverObserved := by
  intro k s d
  exact ((LooksLike.refl s).setDirect s.direct d).run_observe_eq k

/-- Settles O58: at reset `MUX_EN = 0` and nothing is selected, so `CURSOR` and `CNT` are free. -/
theorem resetCursorAndCounterAreNeverObserved : Obligations.ResetCursorAndCounterAreNeverObserved := by
  intro k cs cur n
  have h : LooksLike { State.reset with inputs := cs } { State.reset with inputs := cs, cursor := cur, cnt := n } :=
    { LooksLike.refl { State.reset with inputs := cs } with
      cursor := nofun
      cnt := fun hread => absurd hread (by simp [State.reset]) }
  exact h.run_observe_eq k

end Sys2Proof.Machine
end

section
/-! Single instructions and registers: the counter and the period (spec/10_state.md R26), who writes what (R38), the register
form of the selection (R30). -/

namespace Sys2Proof.Machine

/-! ### The counter -/

theorem period_pos (s : State) : 0 < s.period := by
  unfold State.period
  split <;> decide

theorem tickWith_period (pm : Wiring) (s : State) : (tickWith pm s).period = s.period := by
  obtain ⟨-, -, -, hfast, -⟩ := tickWith_keeps pm s
  rw [State.period, State.period, hfast]

/-- A counter that does not wrap is below the period after counting, and the sum needs no ninth bit (R121). -/
theorem tickWith_cnt_lt_period (pm : Wiring) (s : State) : (tickWith pm s).cnt.toNat < (tickWith pm s).period := by
  rw [tickWith_period, tickWith_cnt]
  split
  next => exact period_pos s
  next hwrap =>
    have hlt : s.cnt.toNat + 1 < s.period := by simpa [State.wraps] using hwrap
    calc (s.cnt + 1).toNat ≤ s.cnt.toNat + 1 := by rw [BitVec.toNat_add]; exact Nat.mod_le _ _
      _ < s.period := hlt

/-- The normal period is as long as the counter's range. -/
theorem cnt_lt_period_of_fast_false {s : State} (h : s.fast = false) : s.cnt.toNat < s.period := by
  rw [State.period, h]
  exact s.cnt.isLt

/-- Settles O36: a `TICK` wraps the counter at the period, the mode-switch commands clear it, and of the others only
`SET_FAST_PWM_MODE` writes `FAST`. -/
theorem counterStaysBelowThePeriod : Obligations.CounterStaysBelowThePeriod := by
  constructor
  · rintro s t ⟨⟩
    exact tickWith_cnt_lt_period pinMap s
  · intro i s t hexec hlt hfast
    cases exec_effect hexec with
    | answer | bright | mask => exact hlt
    | fast enable =>
      cases enable with
      | true => exact absurd rfl hfast
      | false => exact cnt_lt_period_of_fast_false rfl
    | enable | disable | directOn | directOff => exact period_pos s
    | tick => exact tickWith_cnt_lt_period pinMap s

/-! ### Who writes what -/

/-- Settles O53, effect by effect. -/
theorem onlyItsWritersChangeARegister : Obligations.OnlyItsWritersChangeARegister := by
  intro i s t hexec
  cases exec_effect hexec with
  | answer i r htick => simp [htick]
  | bright value => simp [Instr.mnemonic]
  | mask i m hi =>
    have htick : i ≠ .tick := by rintro rfl; simp [Instr.mnemonic] at hi
    refine ⟨fun _ => List.mem_append_left ["ENABLE_MULTIPLEX"] hi, ?_⟩
    simp [htick]
  | fast enable => simp [Instr.mnemonic]
  | enable w0 w1 => simp [Instr.mnemonic, modeSwitch]
  | disable => simp [Instr.mnemonic, modeSwitch]
  | directOn i => simp [Instr.mnemonic]
  | directOff i => simp [Instr.mnemonic]
  | tick =>
    obtain ⟨hmask, hbright, hmux, hfast, hdirect, hrsp, hinputs⟩ := tickWith_keeps pinMap s
    exact ⟨absurd hmask, absurd hbright, fun h => .inr ⟨rfl, tickWith_cursor_ne h⟩, fun _ => .inl rfl, absurd hmux,
      absurd hfast, absurd hdirect, fun h => .inl ⟨rfl, tickWith_sel_ne h⟩, fun _ => .inl rfl, hinputs, fun _ => hrsp⟩

/-! ### The register form of the selection -/

/-- Three bits tell the seven pins apart. -/
theorem ofNat_pin_inj {p q : Pin} : BitVec.ofNat 3 p.val = BitVec.ofNat 3 q.val ↔ p = q := by
  revert p q
  decide

theorem selValid_eq_one_iff (s : State) : s.selValid = 1 ↔ s.sel ≠ none := by
  unfold State.selValid
  cases s.sel <;> simp

theorem selA_selC_of_selValid_eq_zero {s : State} (h : s.selValid = 0) : s.selA = 0 ∧ s.selC = 0 := by
  cases hsel : s.sel with
  | none => simp [State.selA, State.selC, hsel]
  | some p => simp [State.selValid, hsel] at h

/-- Equal registers are equal selections: `SEL_VALID` tells whether there is one, and the pin fields which. -/
theorem sel_eq_of_registers_eq {s t : State} (hvalid : s.selValid = t.selValid) (ha : s.selA = t.selA)
    (hc : s.selC = t.selC) : s.sel = t.sel := by
  cases hs : s.sel with
  | none =>
    cases ht : t.sel with
    | none => rfl
    | some q => simp [State.selValid, hs, ht] at hvalid
  | some p =>
    cases ht : t.sel with
    | none => simp [State.selValid, hs, ht] at hvalid
    | some q =>
      obtain ⟨pa, pc⟩ := p
      obtain ⟨qa, qc⟩ := q
      simp only [State.selA, State.selC, hs, ht, ofNat_pin_inj] at ha hc
      rw [ha, hc]

/-- Settles O15: the register form determines the selection, and is a function of it. -/
theorem selectionRegisterFormIsCanonical : Obligations.SelectionRegisterFormIsCanonical := by
  intro s t
  refine ⟨selA_selC_of_selValid_eq_zero, selValid_eq_one_iff s, ?_, ?_⟩
  · rintro ⟨hvalid, ha, hc⟩
    exact sel_eq_of_registers_eq hvalid ha hc
  · intro hsel
    simp only [State.selValid, State.selA, State.selC, hsel, and_self]

end Sys2Proof.Machine
end

section
/-! The bitmask and its views (spec/20_memory.md): the serial form (R52), the frame layout (R51), and the index operands that
name no LED (R63). -/

namespace Sys2Proof.Machine

/-! ### The serial form -/

theorem getLsbD_byteAt {w : Nat} (v : BitVec w) (k : Nat) {j : Nat} (hj : j < 8) :
    (byteAt k v).getLsbD j = v.getLsbD (8 * k + j) := by
  simp [byteAt, hj]

theorem length_bytesOfFrame (F : Frame64) : (bytesOfFrame F).length = 8 := by
  rw [bytesOfFrame, List.length_map, List.length_range]

theorem getElem?_bytesOfFrame (F : Frame64) {k : Nat} (hk : k < 8) : (bytesOfFrame F)[k]? = some (byteAt k F) := by
  rw [bytesOfFrame, List.getElem?_map, List.getElem?_range hk, Option.map_some]

/-- Settles O11: bit `n mod 8` of byte `n div 8` is bit `n` of the frame, which is LED `n` or one of the zeros above. -/
theorem serialisedFramePutsEachLedInItsByte : Obligations.SerialisedFramePutsEachLedInItsByte := by
  intro m
  refine ⟨length_bytesOfFrame _, fun n hn => ⟨_, getElem?_bytesOfFrame _ (Nat.div_lt_of_lt_mul hn), ?_⟩⟩
  rw [getLsbD_byteAt _ _ (Nat.mod_lt n (by decide)), Nat.div_add_mod, getLsbD_frameOfMask]

/-! ### The frame layout -/

theorem maskBit_eq_getLsbD_frameOfMask (m : Mask) (i : LedIndex) : maskBit m i = (frameOfMask m).getLsbD i.val := by
  rw [getLsbD_frameOfMask, dif_pos i.isLt]

/-- The words of a read-back hold the LEDs as the words of a frame do: the read-back is word 1 above word 0. -/
theorem maskBit_eq_getLsbD_words (m : Mask) (i : LedIndex) :
    maskBit m i = if i.val < 32 then (maskWord0 m).getLsbD i.val else (maskWord1 m).getLsbD (i.val - 32) := by
  rw [maskBit_eq_getLsbD_frameOfMask, frameOfMask, BitVec.getLsbD_append]

/-- Settles O14: the layout of an installed frame, of a read-back, and the zeros above it. -/
theorem frameBitIsItsLed : Obligations.FrameBitIsItsLed :=
  ⟨maskBit_maskOfFrame, fun m i => ⟨maskBit_eq_getLsbD_frameOfMask m i, maskBit_eq_getLsbD_words m i⟩,
    fun m _ => maskWord1_getLsbD_of_le m⟩

/-! ### An index of 42 or more -/

section OutOfRange

variable {index : Byte} (h : 42 ≤ index.toNat)
include h

theorem lookup_eq_none (pm : Wiring) : lookup pm index = none := by
  rw [lookup, ledOfIndex_eq_none h, Option.map_none]

theorem directDriveWith_of_out_of_range (pm : Wiring) (state : Bool) (s : State) :
    directDriveWith pm index state s = s.respond 0 := by
  rw [directDriveWith, ledOfIndex_eq_none h]

theorem exec_directDrive_of_out_of_range (state : Bool) (s : State) :
    exec (.directDrive index state) s = .next (s.respond 0) :=
  congrArg Host.Outcome.next (directDriveWith_of_out_of_range h pinMap state s)

theorem exec_setLedBit_of_out_of_range (state : Bool) (s : State) :
    exec (.setLedBit index state) s = .next (s.respond 0) := by
  rw [exec, execSetLedBit, ledOfIndex_eq_none h]

end OutOfRange

/-- Settles O23: such an operand names no LED, so both commands only answer, and no map is applied. -/
theorem outOfRangeIndexIsANoOp : Obligations.OutOfRangeIndexIsANoOp :=
  fun _ state s h =>
    ⟨exec_setLedBit_of_out_of_range h state s, exec_directDrive_of_out_of_range h state s, lookup_eq_none h⟩

end Sys2Proof.Machine
end

section
/-! The encoding of commands (spec/30_encoding.md R71 to R76, R79, R84): the fields of the encoder's word, the part of a word
that its command's format keeps, and the decoder as the inverse of the encoder on that part. -/

namespace Sys2Proof

/-! ### The encoder's word -/

section Fields

variable (op : Byte) (w1 w0 : Word32)

@[simp] theorem opcodeField_commandWord : opcodeField (commandWord op w1 w0) = op :=
  BitVec.extractLsb'_append_eq_left

@[simp] theorem w1Field_commandWord : w1Field (commandWord op w1 w0) = w1 := by
  rw [w1Field, commandWord, BitVec.extractLsb'_append_eq_of_add_le (by decide), BitVec.extractLsb'_append_eq_left]

@[simp] theorem w0Field_commandWord : w0Field (commandWord op w1 w0) = w0 := by
  rw [w0Field, commandWord, BitVec.extractLsb'_append_eq_of_add_le (by decide), BitVec.extractLsb'_append_eq_right]

end Fields

/-- A command word is its three fields of R71. -/
theorem commandWord_fields (C : CmdWord) : commandWord (opcodeField C) (w1Field C) (w0Field C) = C := by
  have hlow : w1Field C ++ w0Field C = C.extractLsb' 0 64 := BitVec.extractLsb'_append_extractLsb'_eq_extractLsb' rfl
  have hall : opcodeField C ++ C.extractLsb' 0 64 = C.extractLsb' 0 72 :=
    BitVec.extractLsb'_append_extractLsb'_eq_extractLsb' rfl
  rw [commandWord, hlow, hall, BitVec.extractLsb'_eq_self]

theorem commandWord_inj {op op' : Byte} {w1 w1' w0 w0' : Word32} :
    commandWord op w1 w0 = commandWord op' w1' w0' ↔ op = op' ∧ w1 = w1' ∧ w0 = w0' := by
  constructor
  · intro h
    exact ⟨by simpa using congrArg opcodeField h, by simpa using congrArg w1Field h, by simpa using congrArg w0Field h⟩
  · rintro ⟨rfl, rfl, rfl⟩
    rfl

/-- A mask acts on each field of a word by itself. -/
theorem and_commandWord (C : CmdWord) (op : Byte) (w1 w0 : Word32) :
    C &&& commandWord op w1 w0 = commandWord (opcodeField C &&& op) (w1Field C &&& w1) (w0Field C &&& w0) := by
  calc C &&& commandWord op w1 w0
      = commandWord (opcodeField C) (w1Field C) (w0Field C) &&& commandWord op w1 w0 := by rw [commandWord_fields]
    _ = (opcodeField C &&& op) ++ ((w1Field C ++ w0Field C) &&& (w1 ++ w0)) := BitVec.and_append
    _ = commandWord (opcodeField C &&& op) (w1Field C &&& w1) (w0Field C &&& w0) := by rw [BitVec.and_append, commandWord]

/-! ### The operands inside word 0 (R73) -/

theorem valueField_eq (C : CmdWord) : valueField C = (w0Field C).setWidth 8 := by
  rw [valueField, w0Field, BitVec.setWidth_extractLsb'_of_le (by decide)]

theorem indexField_eq (C : CmdWord) : indexField C = (w0Field C).setWidth 8 := valueField_eq C

theorem stateField_eq (C : CmdWord) : stateField C = (w0Field C).getLsbD 8 := by
  simp [stateField, w0Field]

theorem enableField_eq (C : CmdWord) : enableField C = (w0Field C).getLsbD 0 := by
  simp [enableField, w0Field]

/-- Word 0 of format `IS`: `state` above the eight bits of `index`, and zeros. -/
theorem indexStateWord_eq (index : Byte) (state : Bool) :
    indexStateWord index state = (BitVec.cons state index).setWidth 32 := by
  rw [BitVec.setWidth_eq_append (by decide)]
  rfl

/-- A mask of the lowest `n` bits keeps exactly these. -/
theorem and_lowMask (w : Word32) {n : Nat} (hn : n ≤ 32) :
    w &&& BitVec.ofNat 32 (2 ^ n - 1) = (w.setWidth n).setWidth 32 := by
  apply BitVec.eq_of_toNat_eq
  have := Nat.pow_le_pow_right (show 0 < 2 by decide) hn
  have := Nat.two_pow_pos n
  rw [BitVec.toNat_and, BitVec.toNat_ofNat, Nat.mod_eq_of_lt (by omega), Nat.and_two_pow_sub_one_eq_mod]
  rw [BitVec.toNat_setWidth_of_le hn, BitVec.toNat_setWidth]

theorem setWidth_indexStateWord (index : Byte) (state : Bool) :
    (indexStateWord index state).setWidth 8 = index := by
  rw [indexStateWord_eq]
  simp

theorem getLsbD_indexStateWord (index : Byte) (state : Bool) : (indexStateWord index state).getLsbD 8 = state := by
  rw [indexStateWord_eq, BitVec.getLsbD_setWidth, BitVec.getLsbD_cons]
  rfl

@[simp] theorem valueField_commandWord (op value : Byte) (w1 : Word32) :
    valueField (commandWord op w1 (value.setWidth 32)) = value := by
  simp [valueField_eq]

@[simp] theorem indexField_commandWord (op index : Byte) (state : Bool) (w1 : Word32) :
    indexField (commandWord op w1 (indexStateWord index state)) = index := by
  rw [indexField_eq, w0Field_commandWord, setWidth_indexStateWord]

@[simp] theorem stateField_commandWord (op index : Byte) (state : Bool) (w1 : Word32) :
    stateField (commandWord op w1 (indexStateWord index state)) = state := by
  rw [stateField_eq, w0Field_commandWord, getLsbD_indexStateWord]

@[simp] theorem enableField_commandWord (op : Byte) (enable : Bool) (w1 : Word32) :
    enableField (commandWord op w1 ((BitVec.ofBool enable).setWidth 32)) = enable := by
  simp [enableField_eq]

theorem and_noBits (w : Word32) : w &&& 0 = 0 := BitVec.and_zero

theorem and_byteMask (w : Word32) : w &&& 0xFF = (w.setWidth 8).setWidth 32 := and_lowMask w (n := 8) (by decide)

theorem and_indexStateMask (w : Word32) : w &&& 0x1FF = indexStateWord (w.setWidth 8) (w.getLsbD 8) := by
  rw [indexStateWord_eq, ← BitVec.setWidth_succ]
  exact and_lowMask w (n := 9) (by decide)

theorem and_enableMask (w : Word32) : w &&& 0x1 = (BitVec.ofBool (w.getLsbD 0)).setWidth 32 :=
  BitVec.and_one_eq_setWidth_ofBool_getLsbD

theorem byteWord_inj {v v' : Byte} : v.setWidth 32 = v'.setWidth 32 ↔ v = v' := by
  refine ⟨fun h => ?_, congrArg _⟩
  simpa using congrArg (BitVec.setWidth 8) h

theorem indexStateWord_inj {i i' : Byte} {b b' : Bool} :
    indexStateWord i b = indexStateWord i' b' ↔ i = i' ∧ b = b' := by
  constructor
  · intro h
    have hindex := congrArg (BitVec.setWidth 8) h
    have hstate := congrArg (BitVec.getLsbD · 8) h
    simp only [setWidth_indexStateWord, getLsbD_indexStateWord] at hindex hstate
    exact ⟨hindex, hstate⟩
  · rintro ⟨rfl, rfl⟩
    rfl

theorem enableWord_inj {e e' : Bool} : (BitVec.ofBool e).setWidth 32 = (BitVec.ofBool e').setWidth 32 ↔ e = e' := by
  revert e e'
  decide

/-! ### What a format keeps of a word -/

/-- The word with the operand bits that the format does not name cleared. -/
def Format.keep (f : Format) (C : CmdWord) : CmdWord := C &&& (0xFF0000000000000000 ||| f.fieldBits)

section Keep

variable (C : CmdWord)

/-- The kept part of a word, for operand bits given as two words. -/
theorem keep_eq {f : Format} (w1 w0 : Word32) (h : 0xFF0000000000000000 ||| f.fieldBits = commandWord 0xFF w1 w0) :
    f.keep C = commandWord (opcodeField C) (w1Field C &&& w1) (w0Field C &&& w0) := by
  rw [Format.keep, h, and_commandWord, show (0xFF : Byte) = BitVec.allOnes 8 from rfl, BitVec.and_allOnes]

@[simp] theorem opcodeField_keep (f : Format) : opcodeField (f.keep C) = opcodeField C := by
  have h : 0xFF0000000000000000 ||| f.fieldBits = commandWord 0xFF (w1Field f.fieldBits) (w0Field f.fieldBits) := by
    cases f <;> rfl
  rw [keep_eq C _ _ h, opcodeField_commandWord]

theorem keep_N : Format.N.keep C = commandWord (opcodeField C) 0 0 := by
  rw [keep_eq C 0 0 rfl, and_noBits, and_noBits]

theorem keep_V : Format.V.keep C = commandWord (opcodeField C) 0 ((valueField C).setWidth 32) := by
  rw [keep_eq C 0 0xFF rfl, and_noBits, and_byteMask, valueField_eq]

theorem keep_IS : Format.IS.keep C = commandWord (opcodeField C) 0 (indexStateWord (indexField C) (stateField C)) := by
  rw [keep_eq C 0 0x1FF rfl, and_noBits, and_indexStateMask, indexField_eq, stateField_eq]

theorem keep_E : Format.E.keep C = commandWord (opcodeField C) 0 ((BitVec.ofBool (enableField C)).setWidth 32) := by
  rw [keep_eq C 0 0x1 rfl, and_noBits, and_enableMask, enableField_eq]

theorem keep_F : Format.F.keep C = commandWord (opcodeField C) (w1Field C) (w0Field C) := by
  rw [keep_eq C (BitVec.allOnes 32) (BitVec.allOnes 32) rfl, BitVec.and_allOnes, BitVec.and_allOnes]

end Keep

/-! ### The decoder inverts the encoder -/

/-- Settles O5: each operand field reads what the encoder put into it, and the opcode byte selects the constructor. -/
theorem decodeReadsBackEveryEncoding : Obligations.DecodeReadsBackEveryEncoding := by
  intro i
  cases i with
  | tick => rfl
  | _ => simp [encode, decode, decodeCommand]

/-- The opcode of an instruction (R74); the tick port has none (R84). -/
def Instr.opcode : Instr → Option Byte
  | .setBrightness _ => some 0x01
  | .getBrightness => some 0x02
  | .setLedBit _ _ => some 0x03
  | .replaceBitmask _ _ => some 0x04
  | .readBitmask => some 0x05
  | .clearAll => some 0x06
  | .setAll => some 0x07
  | .enableMultiplex _ _ => some 0x08
  | .disableMultiplex => some 0x09
  | .directDrive _ _ => some 0x0A
  | .setFastPwmMode _ => some 0x0B
  | .tick => none

/-- The encoder's word has the instruction's opcode in its opcode byte. -/
theorem opcode_of_encode {i : Instr} {C : CmdWord} (h : encode i = .command C) : i.opcode = some (opcodeField C) := by
  cases i <;> cases h <;> rw [opcodeField_commandWord, Instr.opcode]

theorem encode_of_decode {C : CmdWord} {i : Instr} (h : decodeCommand C = .ok i) :
    encode i = .command (i.format.keep C) := by
  rcases decodeCommand_cases C with ⟨hop, hd⟩ | ⟨hop, hd⟩ | ⟨hop, hd⟩ | ⟨hop, hd⟩ | ⟨hop, hd⟩ | ⟨hop, hd⟩ | ⟨hop, hd⟩ |
    ⟨hop, hd⟩ | ⟨hop, hd⟩ | ⟨hop, hd⟩ | ⟨hop, hd⟩ | ⟨-, hd⟩ <;> cases hd.symm.trans h <;>
    simp [encode, Instr.format, keep_N, keep_V, keep_IS, keep_E, keep_F, hop]

theorem decode_of_encode {C : CmdWord} {i : Instr} (h : encode i = .command (i.format.keep C)) :
    decodeCommand C = .ok i := by
  cases i with
  | setBrightness value =>
    rw [Instr.format, keep_V, encode, Encoded.command.injEq, commandWord_inj, byteWord_inj] at h
    obtain ⟨hop, -, rfl⟩ := h
    simp [decodeCommand, ← hop]
  | setLedBit index state | directDrive index state =>
    rw [Instr.format, keep_IS, encode, Encoded.command.injEq, commandWord_inj, indexStateWord_inj] at h
    obtain ⟨hop, -, rfl, rfl⟩ := h
    simp [decodeCommand, ← hop]
  | replaceBitmask w0 w1 | enableMultiplex w0 w1 =>
    rw [Instr.format, keep_F, encode, Encoded.command.injEq, commandWord_inj] at h
    obtain ⟨hop, rfl, rfl⟩ := h
    simp [decodeCommand, ← hop]
  | getBrightness | readBitmask | clearAll | setAll | disableMultiplex =>
    rw [Instr.format, keep_N, encode, Encoded.command.injEq, commandWord_inj] at h
    simp [decodeCommand, ← h.1]
  | setFastPwmMode enable =>
    rw [Instr.format, keep_E, encode, Encoded.command.injEq, commandWord_inj, enableWord_inj] at h
    obtain ⟨hop, -, rfl⟩ := h
    simp [decodeCommand, ← hop]
  | tick => cases h

/-- The decoder answers `i` exactly on the words whose kept part is the encoding of `i`. -/
theorem decodeCommand_eq_ok_iff {C : CmdWord} {i : Instr} :
    decodeCommand C = .ok i ↔ encode i = .command (i.format.keep C) :=
  ⟨encode_of_decode, decode_of_encode⟩

/-- Settles O6: the kept part of a word is what the encoder writes from its fields. -/
theorem encodeOfDecodedClearsIgnoredBits : Obligations.EncodeOfDecodedClearsIgnoredBits :=
  fun _ _ => encode_of_decode

theorem and_opcodeMask (C : CmdWord) : C &&& 0xFF0000000000000000 = commandWord (opcodeField C) 0 0 := keep_N C

/-- The kept part of a word is determined by its opcode byte and the operand bits the format names. -/
theorem keep_congr {f : Format} {C D : CmdWord} (hop : opcodeField D = opcodeField C)
    (hbits : D &&& f.fieldBits = C &&& f.fieldBits) : f.keep D = f.keep C := by
  rw [Format.keep, Format.keep, BitVec.and_or_distrib_left, BitVec.and_or_distrib_left, and_opcodeMask, and_opcodeMask,
    hop, hbits]

/-- Settles O8: such words have the same kept part. -/
theorem ignoredOperandBitsDoNotMatter : Obligations.IgnoredOperandBitsDoNotMatter := by
  intro C D i hC hop hbits
  rw [decodeCommand_eq_ok_iff] at hC ⊢
  rw [hC, keep_congr hop hbits]

/-! ### Reserved opcodes and the opcode map -/

theorem opcode_of_decode {C : CmdWord} {i : Instr} (h : decodeCommand C = .ok i) : i.opcode = some (opcodeField C) := by
  rw [opcode_of_encode (encode_of_decode h), opcodeField_keep]

theorem opcode_in_range {i : Instr} {op : Byte} (h : i.opcode = some op) : 1 ≤ op.toNat ∧ op.toNat < 12 := by
  cases i <;> cases h <;> decide

/-- The only rejection on the command port, and when it is made. -/
theorem reserved_of_error {C : CmdWord} {e : Rejection} (h : decodeCommand C = .error e) :
    (opcodeField C = 0 ∨ 12 ≤ (opcodeField C).toNat) ∧ e = .reservedOpcode (opcodeField C) := by
  simpa [h] using decodeCommand_cases C

theorem decodeCommand_of_reserved {C : CmdWord} (h : (opcodeField C).toNat = 0 ∨ 12 ≤ (opcodeField C).toNat) :
    decodeCommand C = .error (.reservedOpcode (opcodeField C)) := by
  cases hd : decodeCommand C with
  | ok i =>
    have := opcode_in_range (opcode_of_decode hd)
    omega
  | error e => rw [(reserved_of_error hd).2]

/-- Settles O9: the decoder rejects both ranges, and a rejected word only answers 0. -/
theorem reservedOpcodeWritesNothing : Obligations.ReservedOpcodeWritesNothing := fun _ s h =>
  ⟨decodeCommand_of_reserved h, Machine.runCommand_of_reject (decodeCommand_of_reserved h) s⟩

/-- Every row's mask is the opcode byte, and its pattern an opcode without operands. -/
theorem row_shape : ∀ r ∈ commandTable,
    r.mask = 0xFF0000000000000000 ∧ r.pattern = commandWord (opcodeField r.pattern) 0 0 := by decide

/-- A row selects the words with the opcode of its pattern. -/
theorem selects_iff {r : TableRow} (hr : r ∈ commandTable) (C : CmdWord) :
    r.selects C = true ↔ opcodeField r.pattern = opcodeField C := by
  obtain ⟨hmask, hpattern⟩ := row_shape r hr
  rw [TableRow.selects, beq_iff_eq, hmask, and_opcodeMask]
  constructor
  · intro h
    rw [← h, opcodeField_commandWord]
  · intro h
    rw [hpattern, h]

/-- The row with an instruction's opcode is the one with its mnemonic and its format. -/
theorem opcode_eq_row_iff {r : TableRow} (hr : r ∈ commandTable) (i : Instr) :
    i.opcode = some (opcodeField r.pattern) ↔ i.mnemonic = r.mnemonic ∧ i.format = r.format := by
  revert r
  cases i <;> simp [commandTable, Instr.opcode, Instr.mnemonic, Instr.format, opcodeField]

theorem row_of_opcode {i : Instr} {op : Byte} (h : i.opcode = some op) :
    ∃ r ∈ commandTable, opcodeField r.pattern = op := by
  cases i <;> cases h <;> decide

theorem row_opcode_not_reserved : ∀ r ∈ commandTable,
    ¬ (opcodeField r.pattern = 0 ∨ 12 ≤ (opcodeField r.pattern).toNat) := by decide

theorem selects_iff_decodes {r : TableRow} (hr : r ∈ commandTable) (C : CmdWord) :
    r.selects C = true ↔ ∃ i, decodeCommand C = .ok i ∧ i.mnemonic = r.mnemonic ∧ i.format = r.format := by
  rw [selects_iff hr]
  constructor
  · intro hop
    cases hd : decodeCommand C with
    | ok i => exact ⟨i, rfl, (opcode_eq_row_iff hr i).mp (by rw [opcode_of_decode hd, hop])⟩
    | error e => exact absurd (reserved_of_error hd).1 (hop ▸ row_opcode_not_reserved r hr)
  · rintro ⟨i, hd, hi⟩
    have hop := (opcode_eq_row_iff hr i).mpr hi
    exact Option.some.inj (hop.symm.trans (opcode_of_decode hd))

/-- The rows have distinct opcodes. -/
theorem rows_selecting_le_one (C : CmdWord) : (commandTable.filter fun r => r.selects C).length ≤ 1 := by
  have hrows : commandTable.filter (fun r => r.selects C) =
      commandTable.filter (fun r => opcodeField r.pattern == opcodeField C) :=
    List.filter_congr fun r hr => by rw [Bool.eq_iff_iff, selects_iff hr, beq_iff_eq]
  have hnodup : (commandTable.map fun r => opcodeField r.pattern).Nodup := by decide
  calc (commandTable.filter fun r => r.selects C).length
      = (commandTable.map fun r => opcodeField r.pattern).count (opcodeField C) := by
        rw [hrows, ← List.countP_eq_length_filter, List.count, List.countP_map]
        rfl
    _ ≤ 1 := List.nodup_iff_count_le_one.mp hnodup _

theorem no_row_selects_iff (C : CmdWord) :
    (∀ r ∈ commandTable, r.selects C = false) ↔ decodeCommand C = .error (.reservedOpcode (opcodeField C)) := by
  constructor
  · intro hnone
    cases hd : decodeCommand C with
    | ok i =>
      obtain ⟨r, hr, hop⟩ := row_of_opcode (opcode_of_decode hd)
      exact absurd ((selects_iff hr C).mpr hop) (by simp [hnone r hr])
    | error e => rw [(reserved_of_error hd).2]
  · intro hd r hr
    rw [Bool.eq_false_iff, ne_eq, selects_iff_decodes hr]
    rintro ⟨i, hi, -⟩
    cases hi.symm.trans hd

/-- Settles O7: rows and decoder both go by the opcode byte, and each of the eleven opcodes has one row. -/
theorem decoderFollowsTheOpcodeMap : Obligations.DecoderFollowsTheOpcodeMap := fun C =>
  ⟨fun _ hr => selects_iff_decodes hr C, rows_selecting_le_one C, no_row_selects_iff C⟩

/-- Settles O4: one row of the spec's table of examples after another. -/
theorem workedEncodingsDecode : Obligations.WorkedEncodingsDecode :=
  ⟨rfl, rfl, rfl, rfl, rfl, rfl, rfl, rfl, rfl⟩

end Sys2Proof
end

section
/-! The serial form of a command (spec/30_encoding.md R78). -/

namespace Sys2Proof

theorem byteAt_setWidth (C : CmdWord) {n : Nat} (hn : n < 8) : byteAt n (C.setWidth 64) = C.extractLsb' (8 * n) 8 :=
  BitVec.extractLsb'_setWidth_of_le (by omega)

theorem bytesOfCommand_eq (C : CmdWord) :
    bytesOfCommand C = [C.extractLsb' 64 8, C.extractLsb' 0 8, C.extractLsb' 8 8, C.extractLsb' 16 8, C.extractLsb' 24 8,
      C.extractLsb' 32 8, C.extractLsb' 40 8, C.extractLsb' 48 8, C.extractLsb' 56 8] := by
  have hlow : bytesOfFrame (C.setWidth 64) = (List.range 8).map fun n => C.extractLsb' (8 * n) 8 :=
    List.map_congr_left fun n hn => byteAt_setWidth C (List.mem_range.mp hn)
  rw [bytesOfCommand, hlow]
  rfl

/-- Four bytes, the least significant last, are the 32 bits they were taken from. -/
theorem append_four_bytes {w : Nat} (v : BitVec w) (k : Nat) :
    v.extractLsb' (k + 24) 8 ++ (v.extractLsb' (k + 16) 8 ++ (v.extractLsb' (k + 8) 8 ++ v.extractLsb' k 8)) =
      v.extractLsb' k 32 := by
  rw [BitVec.extractLsb'_append_extractLsb'_eq_extractLsb' rfl, BitVec.extractLsb'_append_extractLsb'_eq_extractLsb' rfl,
    BitVec.extractLsb'_append_extractLsb'_eq_extractLsb' rfl]

theorem commandOfBytes_bytesOfCommand (C : CmdWord) : commandOfBytes (bytesOfCommand C) = some C := by
  have hw1 : _ = w1Field C := append_four_bytes C 32
  have hw0 : _ = w0Field C := append_four_bytes C 0
  calc commandOfBytes (bytesOfCommand C)
      = some (commandWord (opcodeField C) (w1Field C) (w0Field C)) := by rw [bytesOfCommand_eq, ← hw1, ← hw0]; rfl
    _ = some C := by rw [commandWord_fields]

/-- Settles O10: the bytes are read back as the three fields they were taken from. -/
theorem serialFormReadsBack : Obligations.SerialFormReadsBack := fun C =>
  ⟨bytesOfCommand_eq C, by rw [decodeBytes, commandOfBytes_bytesOfCommand]⟩

end Sys2Proof
end

section
/-! The assembler (spec/30_encoding.md R79 to R81): a line is expanded when it passes its range check, and refused with the
check's error otherwise. -/

namespace Sys2Proof.Machine

/-! ### Checked lines -/

theorem assembleLine_of_check_none {l : AsmLine} (h : l.check = none) : assembleLine l = .ok (expandLine l) := by
  rw [assembleLine, h]

theorem assembleLine_of_check_some {l : AsmLine} {e : AsmError} (h : l.check = some e) : assembleLine l = .error e := by
  rw [assembleLine, h]

/-- Lines with the same check and the same expansion assemble alike. -/
theorem assembleLine_congr {l m : AsmLine} (hcheck : l.check = m.check) (hexpand : expandLine l = expandLine m) :
    assembleLine l = assembleLine m := by
  rw [assembleLine, assembleLine, hcheck, hexpand]

/-! ### The line of an instruction -/

theorem instr_wellFormed (i : Instr) : i.wellFormed = true := by
  cases i with
  | setBrightness value => exact Laws.WellFormed.setBrightness value
  | setLedBit index state => exact Laws.WellFormed.setLedBit index state
  | replaceBitmask w0 w1 => exact Laws.WellFormed.replaceBitmask w0 w1
  | enableMultiplex w0 w1 => exact Laws.WellFormed.enableMultiplex w0 w1
  | directDrive index state => exact Laws.WellFormed.directDrive index state
  | setFastPwmMode enable => exact Laws.WellFormed.setFastPwmMode enable
  | getBrightness | readBitmask | clearAll | setAll | disableMultiplex | tick => rfl

/-- The numbers a line writes are read back as the operands they came from. -/
theorem expandLine_toAsm (i : Instr) : expandLine i.toAsm = [encode i] := by
  cases i with
  | setBrightness | setLedBit | directDrive | setFastPwmMode => simp [Instr.toAsm, expandLine]
  | replaceBitmask w0 w1 | enableMultiplex w0 w1 =>
    simp [Instr.toAsm, expandLine, frameEvent, FrameOperand.w0, FrameOperand.w1]
  | getBrightness | readBitmask | clearAll | setAll | disableMultiplex | tick => rfl

/-- Settles O12: every instruction's line passes its check, and its expansion is the instruction's encoding. -/
theorem assemblerWritesEveryInstruction : Obligations.AssemblerWritesEveryInstruction := fun i =>
  (assembleLine_of_check_none (Option.isNone_iff_eq_none.mp (instr_wellFormed i))).trans
    (congrArg Except.ok (expandLine_toAsm i))

/-! ### Operands out of range -/

theorem checkValue_of_gt {v : Nat} (h : 255 < v) : checkValue v = some (.valueOutOfRange v) := if_neg (Nat.not_le.mpr h)

theorem checkIndex_of_le {i : Nat} (h : i ≤ 255) : checkIndex i = none := if_pos h

theorem checkIndex_of_gt {i : Nat} (h : 255 < i) : checkIndex i = some (.indexOutOfRange i) := if_neg (Nat.not_le.mpr h)

theorem checkState_of_gt {b : Nat} (h : 1 < b) : checkState b = some (.stateOutOfRange b) := if_neg (Nat.not_le.mpr h)

theorem checkEnable_of_gt {e : Nat} (h : 1 < e) : checkEnable e = some (.enableOutOfRange e) := if_neg (Nat.not_le.mpr h)

theorem checkRawWord_of_lt {w : Nat} (h : w < 2 ^ 72) : checkRawWord w = none := if_pos h

theorem checkRawWord_of_ge {w : Nat} (h : 2 ^ 72 ≤ w) : checkRawWord w = some (.rawWordOutOfRange w) :=
  if_neg (Nat.not_lt.mpr h)

theorem checkFrame_of_le {f : FrameOperand} (h0 : f.w0 ≤ 0xFFFFFFFF) (h1 : f.w1 ≤ 0xFFFFFFFF) : checkFrame f = none := by
  rw [checkFrame, if_pos h0, if_pos h1]

theorem checkFrame_of_w0_gt {f : FrameOperand} (h : 0xFFFFFFFF < f.w0) : checkFrame f = some (.w0OutOfRange f.w0) :=
  if_neg (Nat.not_le.mpr h)

theorem checkFrame_of_w1_gt {f : FrameOperand} (h0 : f.w0 ≤ 0xFFFFFFFF) (h1 : 0xFFFFFFFF < f.w1) :
    checkFrame f = some (.w1OutOfRange f.w1) := by
  rw [checkFrame, if_pos h0, if_neg (Nat.not_le.mpr h1)]

/-- Both frame commands refuse an operand pair that the frame check refuses. -/
theorem frame_error {f : FrameOperand} {e : AsmError} (h : checkFrame f = some e) :
    assembleLine (.replaceBitmask f) = .error e ∧ assembleLine (.enableMultiplex f) = .error e :=
  ⟨assembleLine_of_check_some h, assembleLine_of_check_some h⟩

/-- Both index commands refuse an index above 255, whatever the state. -/
theorem index_error {i : Nat} (b : Nat) (h : 255 < i) :
    assembleLine (.setLedBit i b) = .error (.indexOutOfRange i) ∧
      assembleLine (.directDrive i b) = .error (.indexOutOfRange i) := by
  have hcheck : (checkIndex i).or (checkState b) = some (.indexOutOfRange i) := by rw [checkIndex_of_gt h, Option.some_or]
  exact ⟨assembleLine_of_check_some hcheck, assembleLine_of_check_some hcheck⟩

theorem state_error {i b : Nat} (hi : i ≤ 255) (hb : 1 < b) :
    assembleLine (.setLedBit i b) = .error (.stateOutOfRange b) ∧
      assembleLine (.directDrive i b) = .error (.stateOutOfRange b) := by
  have hcheck : (checkIndex i).or (checkState b) = some (.stateOutOfRange b) := by
    rw [checkIndex_of_le hi, Option.none_or, checkState_of_gt hb]
  exact ⟨assembleLine_of_check_some hcheck, assembleLine_of_check_some hcheck⟩

/-! ### Pseudo-instructions -/

/-- The check of a pseudo-instruction with a fixed state is that of its index alone. -/
theorem checkIndex_or_checkState {i b : Nat} (h : b ≤ 1) : (checkIndex i).or (checkState b) = checkIndex i := by
  rw [checkState, if_pos h, Option.or_none]

theorem leds_w0_le (is : List Nat) : (FrameOperand.leds is).w0 ≤ 0xFFFFFFFF := Nat.le_of_lt_succ (leds_w0_lt is)

theorem leds_w1_le_iff (is : List Nat) : (FrameOperand.leds is).w1 ≤ 0xFFFFFFFF ↔ ∀ i ∈ is, i < 64 :=
  Nat.lt_succ_iff.symm.trans (leds_w1_lt_iff is)

/-- The operand pair of a `FRAME` has exactly the listed bits. -/
theorem getLsbD_leds (is : List Nat) {n : Nat} (hn : n < 64) :
    (BitVec.ofNat 32 (FrameOperand.leds is).w1 ++ BitVec.ofNat 32 (FrameOperand.leds is).w0 : Frame64).getLsbD n = true ↔
      n ∈ is := by
  rw [BitVec.getLsbD_append]
  by_cases h : n < 32
  · rw [if_pos h, BitVec.getLsbD_ofNat, decide_eq_true h, Bool.true_and, testBit_leds_w0]
    exact and_iff_right h
  · rw [if_neg h, BitVec.getLsbD_ofNat, decide_eq_true (by omega), Bool.true_and, testBit_leds_w1,
      Nat.sub_add_cancel (Nat.not_lt.mp h)]

/-- A `FRAME` with numbers below 64 passes its check in both frame commands. -/
theorem frame_assembles {is : List Nat} (h : ∀ i ∈ is, i < 64) : ∃ w0 w1 : Word32,
    assembleLine (.replaceBitmask (.leds is)) = .ok [encode (.replaceBitmask w0 w1)] ∧
    assembleLine (.enableMultiplex (.leds is)) = .ok [encode (.enableMultiplex w0 w1)] ∧
    ∀ n < 64, ((w1 ++ w0 : Frame64).getLsbD n = true ↔ n ∈ is) := by
  have hcheck := checkFrame_of_le (leds_w0_le is) ((leds_w1_le_iff is).mpr h)
  exact ⟨_, _, assembleLine_of_check_none hcheck, assembleLine_of_check_none hcheck, fun _ => getLsbD_leds is⟩

/-- A `FRAME` with a number of 64 or more has a word 1 that its field does not hold. -/
theorem frame_refused {is : List Nat} (h : ∃ i ∈ is, 64 ≤ i) : ∃ w1 > 0xFFFFFFFF,
    assembleLine (.replaceBitmask (.leds is)) = .error (.w1OutOfRange w1) ∧
    assembleLine (.enableMultiplex (.leds is)) = .error (.w1OutOfRange w1) := by
  have hw1 : 0xFFFFFFFF < (FrameOperand.leds is).w1 := by
    rw [← Nat.not_le, leds_w1_le_iff]
    obtain ⟨i, hi, h64⟩ := h
    exact fun hall => Nat.not_le.mpr (hall i hi) h64
  exact ⟨_, hw1, frame_error (checkFrame_of_w1_gt (leds_w0_le is) hw1)⟩

/-- Settles O13: the expansions first, then one range error per operand. -/
theorem pseudoInstructionsExpand : Obligations.PseudoInstructionsExpand :=
  ⟨fun _ => assembleLine_of_check_none rfl,
    fun _ => assembleLine_congr (checkIndex_or_checkState (by decide)).symm rfl,
    fun _ => assembleLine_congr (checkIndex_or_checkState (by decide)).symm rfl,
    fun _ => assembleLine_congr (checkIndex_or_checkState (by decide)).symm rfl,
    fun _ => assembleLine_congr (checkIndex_or_checkState (by decide)).symm rfl,
    fun _ => frame_assembles,
    fun _ h => assembleLine_of_check_none (checkRawWord_of_lt h),
    fun _ h => assembleLine_of_check_some (checkValue_of_gt h),
    fun _ b h => index_error b h,
    fun _ _ => state_error,
    fun _ h => assembleLine_of_check_some (checkEnable_of_gt h),
    fun _ _ h => frame_error (checkFrame_of_w0_gt h),
    fun _ _ h0 h1 => frame_error (checkFrame_of_w1_gt h0 h1),
    fun _ => frame_refused,
    fun _ h => assembleLine_of_check_some (checkRawWord_of_ge h)⟩

end Sys2Proof.Machine
end

section
/-! The ports (spec/30_encoding.md R70, R77, R83, R84): what a clock makes of its input ports, and what the response and pin
ports show. -/

namespace Sys2Proof.Machine

/-! ### A clock with one instruction -/

theorem runEvents_singleton (e : Event) (s : State) : runEvents [e] s = runEvent e s := by
  obtain ⟨t, ht⟩ := runEvent_completes e s
  rw [runEvents, ht, andThen_next, runEvents]

theorem runClock_of_events {c : Clock} {e : Event} (hrst : c.rst = false) (hevents : c.events = [e]) (s : State) :
    runClock c s = runEvent e s := by
  rw [runClock, hrst, hevents, if_neg Bool.false_ne_true, runEvents_singleton]

theorem decodeTickPort_eq_ok {tick : Bool} {i : Instr} (h : decodeTickPort (BitVec.ofBool tick) = .ok i) :
    tick = true ∧ i = .tick := by
  cases tick with
  | false => cases h
  | true => cases h; exact ⟨rfl, rfl⟩

/-- Settles O49: such a clock has one event, and the event is that instruction. -/
theorem stepRunsTheDecodedInstruction : Obligations.StepRunsTheDecodedInstruction := by
  intro s c rest i hin hrst hport
  rw [step_of_inputs hin]
  rcases hport with ⟨hvalid, htick, hd⟩ | ⟨hvalid, hd⟩
  · have hevents : c.events = [.cmd c.cmd] := by simp [Clock.events, hvalid, htick]
    rw [runClock_of_events hrst hevents]
    exact runCommand_of_decode hd _
  · obtain ⟨htick, rfl⟩ := decodeTickPort_eq_ok hd
    have hevents : c.events = [.tick] := by simp [Clock.events, hvalid, htick]
    rw [runClock_of_events hrst hevents]
    rfl

/-! ### The response port -/

/-- Whether an event is a host command. -/
def Event.isCommand : Event → Bool
  | .tick => false
  | .cmd _ => true

/-- Every instruction but `TICK` answers. -/
theorem Effect.rspValid {s t : State} {i : Instr} (h : Effect s i t) (hi : i ≠ .tick) : t.rspValid = true := by
  cases h with
  | tick => exact absurd rfl hi
  | _ => rfl

theorem runCommand_rspValid {C : CmdWord} {s t : State} (h : runCommand C s = .next t) : t.rspValid = true := by
  cases hd : decodeCommand C with
  | ok i =>
    have hi : i ≠ .tick := by rintro rfl; cases encode_of_decode hd
    rw [runCommand_of_decode hd] at h
    exact (exec_effect h).rspValid hi
  | error e =>
    cases (runCommand_of_reject hd s).symm.trans h
    rfl

/-- A command makes the response valid, a tick leaves the port as it is. -/
theorem runEvent_rspValid {e : Event} {s t : State} (h : runEvent e s = .next t) :
    t.rspValid = (s.rspValid || e.isCommand) := by
  cases e with
  | tick =>
    cases h
    obtain ⟨-, -, -, -, -, hrsp, -⟩ := tickWith_keeps pinMap s
    rw [State.rspValid, hrsp, Event.isCommand, Bool.or_false, State.rspValid]
  | cmd C => rw [runCommand_rspValid h, Event.isCommand, Bool.or_true]

theorem runEvents_rspValid {es : List Event} {s t : State} (h : runEvents es s = .next t) :
    t.rspValid = (s.rspValid || es.any Event.isCommand) := by
  induction es generalizing s with
  | nil => cases h; simp
  | cons e es ih =>
    obtain ⟨u, hu⟩ := runEvent_completes e s
    rw [runEvents, hu, andThen_next] at h
    rw [ih h, runEvent_rspValid hu, List.any_cons, Bool.or_assoc]

theorem Clock.any_isCommand_events (c : Clock) : c.events.any Event.isCommand = c.cmdValid := by
  rw [Clock.events]
  cases c.cmdValid <;> cases c.tick <;> rfl

theorem runClock_rspValid {c : Clock} {s t : State} (hs : s.rspValid = false) (h : runClock c s = .next t) :
    t.rspValid = (c.cmdValid && !c.rst) := by
  rw [runClock] at h
  split at h
  next hrst => cases h; simp [hrst, State.rspValid, State.reset]
  next hrst => simp [runEvents_rspValid h, Clock.any_isCommand_events, hs, hrst]

/-- Settles O52: a clock begins without a response, and only its command makes one valid. -/
theorem responseFollowsExactlyACommand : Obligations.ResponseFollowsExactlyACommand := by
  intro s t c rest hin hstep
  rw [step_of_inputs hin] at hstep
  exact ⟨runClock_rspValid rfl hstep, rfl⟩

/-! ### The pin port -/

theorem pinOe_getLsbD (s : State) (p : Pin) : s.pinOe.getLsbD p.val = s.pins[p].outputEnable := by
  simp [State.pinOe]

theorem pinOut_getLsbD (s : State) (p : Pin) : s.pinOut.getLsbD p.val = s.pins[p].outputLevel := by
  simp [State.pinOut]

/-- Settles O46: the two bits of a pin, state by state. -/
theorem pinPortEncodesEachPin : Obligations.PinPortEncodesEachPin := by
  intro s p
  rw [pinOe_getLsbD, pinOut_getLsbD]
  cases s.pins[p] <;> decide

end Sys2Proof.Machine
end

section
/-! The pin map and the driver (spec/40_map_driver_selector.md R100 to R107, R112): what `PINMAP` reaches, what each
driver primitive writes, and which LED a pair of driven pins lights. -/

namespace Sys2Proof.Machine

/-! ### The pin map -/

theorem ledOfIndex_of_lt {index : Byte} (h : index.toNat < 42) : ledOfIndex index = some ⟨index.toNat, h⟩ := dif_pos h

/-- Settles O44: the map is consulted exactly for an index that names an LED. -/
theorem lookupIsTheMapInRange : Obligations.LookupIsTheMapInRange := by
  intro pm index
  refine ⟨fun h => ?_, fun h => lookup_eq_none h pm⟩
  rw [lookup, ledOfIndex_of_lt h, Option.map_some]

/-- The board's map reaches every pair of distinct pins, as the example map does. -/
theorem exists_pinMap_eq {p : PinPair} (h : p.anode ≠ p.cathode) : ∃ i, pinMap i = p :=
  ⟨Config.wiring.symm (ledOfPairEx p), by rw [pinMap, Equiv.apply_symm_apply, pinMapEx_ledOfPairEx p h]⟩

/-- Settles O43: P1 and P2 hold of every permutation of the example map, and each pair is reached. -/
theorem pinMapIsABijectionOntoDistinctPairs : Obligations.PinMapIsABijectionOntoDistinctPairs := by
  refine ⟨pinMap_valid.anode_ne_cathode, fun i j => pinMap_valid.injective.ne, fun p hp => ?_⟩
  obtain ⟨i, rfl⟩ := exists_pinMap_eq hp
  exact ⟨i, rfl, fun j hj => pinMap_valid.injective hj⟩

/-! ### The driver -/

/-- Settles O45: pin by pin. -/
theorem driverPrimitivesWriteTheirPins : Obligations.DriverPrimitivesWriteTheirPins := by
  intro ps p q
  refine ⟨driveHigh_get p q ps, driveLow_get p q ps, triState_get p q ps, by rw [allOff_eq, allZ_get],
    fun pair hne => ?_⟩
  refine ⟨?_, ?_, fun ha hc => ?_⟩ <;> rw [drivePair_get]
  · rw [if_neg hne, if_pos rfl]
  · rw [if_pos rfl]
  · rw [if_neg hc, if_neg ha]

/-! ### The LED that a pair of driven pins lights -/

theorem pairPins_low_iff (p : PinPair) (q : Pin) : (pairPins p)[q] = .low ↔ q = p.cathode := by
  rw [pairPins_get]
  by_cases hc : q = p.cathode
  · simp [hc]
  · rw [if_neg hc]
    split <;> simp [hc]

theorem pairPins_high_iff {p : PinPair} (h : p.anode ≠ p.cathode) (q : Pin) :
    (pairPins p)[q] = .high ↔ q = p.anode := by
  rw [pairPins_get]
  by_cases ha : q = p.anode
  · simp [ha, h]
  · rw [if_neg ha]
    split <;> simp [ha]

theorem ledDriven_pairPins {p : PinPair} (h : p.anode ≠ p.cathode) (i : LedIndex) :
    LedDriven (pairPins p) i ↔ p = pinMap i := by
  rw [LedDriven, pairPins_high_iff h, pairPins_low_iff, PinPair.mk.injEq, eq_comm (b := p.anode),
    eq_comm (b := p.cathode)]

theorem not_ledDriven_allZ (i : LedIndex) : ¬ LedDriven allZ i := by
  rintro ⟨hhigh, -⟩
  rw [allZ_get] at hhigh
  cases hhigh

section Shown

variable {s : State} (hinv : Inv s)
include hinv

/-- The LEDs a good state drives: the one whose pair it drives. -/
theorem Inv.ledDriven_iff (i : LedIndex) : LedDriven s.pins i ↔ s.ledOn = true ∧ s.sel = some (pinMap i) := by
  rw [hinv.pins_follow]
  cases hled : s.ledOn with
  | false => simp [shownPins, not_ledDriven_allZ]
  | true =>
    obtain ⟨p, hsel⟩ := Option.ne_none_iff_exists'.mp (hinv.driven_selected hled)
    obtain ⟨hne, -⟩ := hinv.selection_mapped p hsel
    simp [hsel, shownPins, ledDriven_pairPins hne]

theorem Inv.exists_sel_eq (hled : s.ledOn = true) : ∃ i, s.sel = some (pinMap i) := by
  obtain ⟨p, hsel⟩ := Option.ne_none_iff_exists'.mp (hinv.driven_selected hled)
  obtain ⟨-, i, rfl⟩ := hinv.selection_mapped p hsel
  exact ⟨i, hsel⟩

end Shown

/-- Settles O47: the pins show the selected pair alone, which by P2 is the pair of one LED. -/
theorem exactlyTheSelectedLedIsDriven : Obligations.ExactlyTheSelectedLedIsDriven := by
  intro s hinv
  simp only [hinv.ledDriven_iff]
  refine ⟨fun i hled => and_iff_right hled, fun hled => ?_, fun hled i ⟨hon, _⟩ => ?_⟩
  · obtain ⟨i, hsel⟩ := hinv.exists_sel_eq hled
    refine ⟨i, ⟨hled, hsel⟩, fun j ⟨_, hj⟩ => pinMap_valid.injective ?_⟩
    exact Option.some.inj (hj.symm.trans hsel)
  · exact Bool.false_ne_true (hled.symm.trans hon)

end Sys2Proof.Machine
end

section
/-! The LED selector (spec/40_map_driver_selector.md R108, R109): the search answers the enabled LED nearest to the
cursor, and the priority encoders compute the same. -/

namespace Sys2Proof.Machine

/-! ### The nearest enabled LED -/

/-- How many LEDs a scan from the cursor passes before it tests `j`. -/
def scanDistance (cur : BitVec 6) (j : LedIndex) : Nat := (j.val + 42 - cur.toNat) % 42

theorem scanDistance_lt (cur : BitVec 6) (j : LedIndex) : scanDistance cur j < 42 := Nat.mod_lt _ (by decide)

section Cursor

variable {cur : BitVec 6} (hcur : cur.toNat ≤ 41)
include hcur

theorem probeIndex_scanDistance (j : LedIndex) : probeIndex cur (scanDistance cur j) = j := by
  apply Fin.ext
  simp only [probeIndex, scanDistance]
  omega

theorem scanDistance_probeIndex {k : Nat} (hk : k < 42) : scanDistance cur (probeIndex cur k) = k := by
  simp only [probeIndex, scanDistance]
  omega

theorem scanDistance_inj {i j : LedIndex} (h : scanDistance cur i = scanDistance cur j) : i = j := by
  rw [← probeIndex_scanDistance hcur i, h, probeIndex_scanDistance hcur j]

theorem findNext_eq_none_iff (m : Mask) : findNext m cur = none ↔ ∀ j : LedIndex, maskBit m j = false := by
  rcases findNext_cases m cur with ⟨k, -, hfind, hbit, -⟩ | ⟨hfind, hnone⟩
  · simp only [hfind, reduceCtorEq, false_iff]
    exact fun hall => Bool.false_ne_true ((hall _).symm.trans hbit)
  · simp only [hfind, true_iff]
    intro j
    rw [← probeIndex_scanDistance hcur j]
    exact hnone _ (scanDistance_lt cur j)

theorem findNext_nearest {m : Mask} {i : LedIndex} (h : findNext m cur = some i) :
    maskBit m i = true ∧ ∀ j : LedIndex, maskBit m j = true → scanDistance cur i ≤ scanDistance cur j := by
  rcases findNext_cases m cur with ⟨k, hk, hfind, hbit, hbefore⟩ | ⟨hfind, -⟩
  · obtain rfl := Option.some.inj (hfind.symm.trans h)
    refine ⟨hbit, fun j hj => ?_⟩
    rw [scanDistance_probeIndex hcur hk]
    by_contra hlt
    have hoff := hbefore _ (Nat.lt_of_not_le hlt)
    rw [probeIndex_scanDistance hcur j, hj] at hoff
    cases hoff
  · cases hfind.symm.trans h

/-- No two LEDs have one distance, so the nearest enabled LED is the only one the search can answer. -/
theorem findNext_eq_some_iff (m : Mask) (i : LedIndex) : findNext m cur = some i ↔
    maskBit m i = true ∧ ∀ j : LedIndex, maskBit m j = true → scanDistance cur i ≤ scanDistance cur j := by
  refine ⟨findNext_nearest hcur, fun ⟨hbit, hnear⟩ => ?_⟩
  cases hfind : findNext m cur with
  | none =>
    have hoff := (findNext_eq_none_iff hcur m).mp hfind i
    exact absurd (hbit.symm.trans hoff) (by decide)
  | some j =>
    obtain ⟨hbit', hnear'⟩ := findNext_nearest hcur hfind
    rw [scanDistance_inj hcur (Nat.le_antisymm (hnear' i hbit) (hnear j hbit'))]

end Cursor

/-- Settles O40: the `k`-th probe is the LED at distance `k`. -/
theorem findNextIsTheNearestEnabledLed : Obligations.FindNextIsTheNearestEnabledLed := fun m _ hcur =>
  ⟨findNext_eq_none_iff hcur m, findNext_eq_some_iff hcur m⟩

/-! ### The priority-encoder forms -/

/-- The bits below the cursor, `2^cur - 1` (R109). -/
def belowMask (cur : BitVec 6) : Mask := BitVec.twoPow 42 cur.toNat - 1

theorem findNextSplit_eq_belowMask (m : Mask) (cur : BitVec 6) : findNextSplit m cur =
    ((priorityEncode (m &&& ~~~ belowMask cur)).or (priorityEncode (m &&& belowMask cur))).map (probeIndex 0) := rfl

section Cursor

variable {cur : BitVec 6} (hcur : cur.toNat ≤ 41) (m : Mask)
include hcur

/-- Bit `k` of the rotated mask is what the `k`-th probe tests. -/
theorem getLsbD_rotateRight_cursor {k : Nat} (hk : k < 42) :
    (m.rotateRight cur.toNat).getLsbD k = maskBit m (probeIndex cur k) := by
  rw [BitVec.getLsbD_rotateRight, Nat.mod_eq_of_lt (show cur.toNat < 42 by omega)]
  change _ = m.getLsbD ((cur.toNat + k) % 42)
  by_cases hwrap : k < 42 - cur.toNat
  · rw [decide_eq_true hwrap, cond_true, Nat.mod_eq_of_lt (by omega)]
  · rw [decide_eq_false hwrap, cond_false, decide_eq_true hk, Bool.true_and]
    congr 1
    omega

theorem findNextRotated_eq : findNextRotated m cur = findNext m cur := by
  rw [findNextRotated, priorityEncode, findNext, List.find?_map]
  exact congrArg _ (List.find?_congr fun k hk => getLsbD_rotateRight_cursor hcur m (List.mem_range.mp hk))

theorem getLsbD_belowMask (k : Nat) : (belowMask cur).getLsbD k = decide (k < cur.toNat) := by
  have hpow : 2 ^ cur.toNat < 2 ^ 42 := Nat.pow_lt_pow_right (by decide) (by omega)
  have hpos := Nat.two_pow_pos cur.toNat
  have hnat : (BitVec.twoPow 42 cur.toNat - 1).toNat = 2 ^ cur.toNat - 1 := by
    rw [BitVec.toNat_sub_of_le, BitVec.toNat_twoPow, Nat.mod_eq_of_lt hpow]
    · rfl
    · rw [BitVec.le_def, BitVec.toNat_twoPow, Nat.mod_eq_of_lt hpow]
      exact hpos
  rw [belowMask, BitVec.getLsbD, hnat, Nat.testBit_two_pow_sub_one]

/-- The scan's order: the LEDs from the cursor up, then those below it. -/
theorem scan_order : (List.range 42).map (probeIndex cur) =
    (List.range' cur.toNat (42 - cur.toNat) ++ List.range cur.toNat).map (probeIndex 0) := by
  apply List.ext_getElem
  · simp only [List.length_map, List.length_append, List.length_range, List.length_range']
    omega
  · intro k hk _
    rw [List.length_map, List.length_range] at hk
    simp only [List.getElem_map, List.getElem_range, List.getElem_append, List.getElem_range', List.length_range',
      probeIndex, Fin.mk.injEq, show (0 : BitVec 6).toNat = 0 from rfl]
    split <;> omega

theorem range_eq_below_append_fromCursor :
    List.range 42 = List.range cur.toNat ++ List.range' cur.toNat (42 - cur.toNat) := by
  rw [List.range'_eq_map_range, ← List.range_add, Nat.add_sub_cancel' (by omega)]

theorem priorityEncode_fromCursor : priorityEncode (m &&& ~~~ belowMask cur) =
    (List.range' cur.toNat (42 - cur.toNat)).find? m.getLsbD := by
  have hlow : ∀ k ∈ List.range cur.toNat, ¬ (m &&& ~~~ belowMask cur).getLsbD k = true := by
    intro k hk
    simp [getLsbD_belowMask hcur, List.mem_range.mp hk]
  rw [priorityEncode, range_eq_below_append_fromCursor hcur, List.find?_append, List.find?_eq_none.mpr hlow,
    Option.none_or]
  refine List.find?_congr fun k hk => ?_
  rw [List.mem_range'_1] at hk
  rw [BitVec.getLsbD_and, BitVec.getLsbD_not, getLsbD_belowMask hcur, decide_eq_true (by omega),
    decide_eq_false (by omega), Bool.not_false, Bool.and_true, Bool.and_true]

theorem priorityEncode_belowCursor : priorityEncode (m &&& belowMask cur) =
    (List.range cur.toNat).find? m.getLsbD := by
  have hhigh : ∀ k ∈ List.range' cur.toNat (42 - cur.toNat),
      ¬ (m &&& belowMask cur).getLsbD k = true := by
    intro k hk
    rw [List.mem_range'_1] at hk
    simp [getLsbD_belowMask hcur, show ¬ k < cur.toNat by omega]
  rw [priorityEncode, range_eq_below_append_fromCursor hcur, List.find?_append, List.find?_eq_none.mpr hhigh,
    Option.or_none]
  refine List.find?_congr fun k hk => ?_
  simp [getLsbD_belowMask hcur, List.mem_range.mp hk]

theorem findNextSplit_eq : findNextSplit m cur = findNext m cur := by
  rw [findNextSplit_eq_belowMask, priorityEncode_fromCursor hcur, priorityEncode_belowCursor hcur, ← List.find?_append,
    findNext, Config.probes, scan_order hcur, List.find?_map]
  refine congrArg _ (List.find?_congr fun k hk => ?_)
  rw [List.mem_append, List.mem_range'_1, List.mem_range] at hk
  simp [maskBit, probeIndex, Nat.mod_eq_of_lt (show k < 42 by omega)]

end Cursor

/-- Settles O41: the encoders read the mask's bits in the order of the probes, by the rotate or part by part. -/
theorem priorityEncoderFormsAgree : Obligations.PriorityEncoderFormsAgree := fun m _ hcur =>
  ⟨findNextRotated_eq hcur m, findNextSplit_eq hcur m⟩

end Sys2Proof.Machine
end

section
/-! The tick (spec/41_scheduler_tick.md R120 to R128): what the gating makes of the pins it finds, the ticks of one slot, and
the LEDs that successive searches pass. -/

namespace Sys2Proof.Machine

/-! ### The gating -/

@[simp] theorem State.gate_wantOn (s : State) : s.gate.wantOn = s.wantOn := by rw [gate_keeps]; rfl

theorem tickWith_ledOn (pm : Wiring) (s : State) : (tickWith pm s).ledOn = (tickWith pm s).wantOn := by
  rw [tickWith_eq, State.gate_ledOn, State.gate_wantOn]

/-- What R123 lets the gating do to the pins `ps` it finds with the flag `on`, when it leaves `t`. -/
structure GatedFrom (ps : Pins) (on : Bool) (t : State) : Prop where
  drives : ∀ p, t.ledOn = true → on = false → t.sel = some p → t.pins = drivePair p ps
  releases : t.ledOn = false → on = true → t.pins = allZ
  keeps : t.ledOn = on → t.pins = ps

theorem gate_gatedFrom (s : State) : GatedFrom s.pins s.ledOn s.gate := by
  rcases gate_cases s with ⟨p, -, hled, hsel, h⟩ | ⟨-, hled, h⟩ | ⟨-, h⟩ <;> rw [h]
  · refine ⟨fun q _ _ hq => ?_, nofun, fun heq => absurd (heq.trans hled) (by simp)⟩
    obtain rfl := Option.some.inj (hsel.symm.trans hq)
    rfl
  · exact ⟨nofun, fun _ _ => allOff_eq s.pins, fun heq => absurd (heq.trans hled) (by simp)⟩
  · exact ⟨fun _ hon hoff => absurd (hon.symm.trans hoff) (by decide),
      fun hoff hon => absurd (hon.symm.trans hoff) (by decide), fun _ => rfl⟩

/-- What the pins have to show for the gating to need no more of them than `LED_ON`; it also holds inside a tick, when the
selection of a driven LED has just been cleared. -/
structure GateReady (s : State) : Prop where
  off : s.ledOn = false → s.pins = allZ
  on : ∀ p, s.sel = some p → s.ledOn = true → s.pins = pairPins p

theorem gateReady_of_follow {s : State} (h : s.pins = shownPins s.sel s.ledOn) : GateReady s where
  off hled := by rw [h, hled, shownPins_false]
  on p hsel hled := by rw [h, hsel, hled, shownPins]

theorem GateReady.setCnt {s : State} (h : GateReady s) (v : Byte) : GateReady (s.setCnt v) := ⟨h.off, h.on⟩

theorem GateReady.setSel_none {s : State} (h : GateReady s) : GateReady (s.setSel none) := ⟨h.off, nofun⟩

theorem gateReady_release (s : State) : GateReady s.release := ⟨fun _ => allOff_eq s.pins, nofun⟩

theorem GateReady.gate_pins {s : State} (h : GateReady s) : s.gate.pins = shownPins s.sel s.wantOn :=
  Machine.gate_pins h.off h.on

theorem GateReady.follow_gate {s : State} (h : GateReady s) : s.gate.pins = shownPins s.gate.sel s.gate.ledOn := by
  rw [h.gate_pins, State.gate_sel, State.gate_ledOn]

/-- Blanking before the gating makes no difference: the gating drives again what is wanted. -/
theorem GateReady.gate_release {s : State} (h : GateReady s) : s.release.gate = s.gate := by
  rw [gate_keeps s, gate_keeps s.release, h.gate_pins, (gateReady_release s).gate_pins]
  rfl

/-! ### The three steps of a tick -/

theorem wraps_iff (s : State) : s.wraps = true ↔ (if s.fast then 64 else 256) ≤ s.cnt.toNat + 1 := decide_eq_true_iff

theorem period_le (s : State) : s.period ≤ 256 := by
  unfold State.period
  split <;> decide

theorem not_wraps_iff (s : State) : ¬ s.wraps = true ↔ s.cnt.toNat + 1 < s.period :=
  (not_congr decide_eq_true_iff).trans Nat.not_le

theorem count_of_not_wraps {s : State} (h : ¬ s.wraps = true) : s.count = s.setCnt (s.cnt + 1) := by
  rw [State.count, if_neg h]

/-- A number below the period fits the counter. -/
theorem toNat_ofNat_of_lt_period {s : State} {n : Nat} (hn : n < s.period) : (BitVec.ofNat 8 n).toNat = n := by
  rw [BitVec.toNat_ofNat]
  exact Nat.mod_eq_of_lt (hn.trans_le (period_le s))

/-- The counter's sum needs no ninth bit where it does not wrap (R121). -/
theorem tickWith_cnt_toNat (pm : Wiring) (s : State) :
    (tickWith pm s).cnt.toNat = if s.wraps then 0 else s.cnt.toNat + 1 := by
  rw [tickWith_cnt]
  split
  next => rfl
  next hwrap =>
    rw [BitVec.toNat_add]
    exact Nat.mod_eq_of_lt (((not_wraps_iff s).mp hwrap).trans_le (period_le s))

/-- Whether a tick selects an LED. -/
def State.reselects (s : State) : Bool := s.wraps && s.muxEn && (findNext s.mask s.cursor).isSome

theorem reselects_iff (s : State) :
    s.reselects = true ↔ s.wraps = true ∧ s.muxEn = true ∧ findNext s.mask s.cursor ≠ none := by
  simp [State.reselects, and_assoc, Option.isSome_iff_ne_none]

/-- The gating of a tick starts from blanked pins when a new LED is selected (D14), else from the pins as they are. -/
theorem tickWith_gatedFrom (pm : Wiring) (s : State) :
    GatedFrom (if s.reselects then allZ else s.pins) (if s.reselects then false else s.ledOn) (tickWith pm s) := by
  rcases tickWith_cases pm s with ⟨i, hwrap, hmux, hfind, h⟩ | ⟨-, -, hfind, h⟩ | ⟨hstay, h⟩ <;> rw [h]
  · have hre : s.reselects = true := (reselects_iff s).mpr ⟨hwrap, hmux, by simp [hfind]⟩
    have hgate := gate_gatedFrom ((s.count.release.setSel (some (pm i))).setCursor (cursorPast i))
    simpa [hre] using hgate
  · have hre : s.reselects = false := by simp [State.reselects, hfind]
    simpa [hre] using gate_gatedFrom (s.count.setSel none)
  · have hre : s.reselects = false := Bool.eq_false_iff.mpr fun hre => by
      obtain ⟨hwrap, hmux, -⟩ := (reselects_iff s).mp hre
      exact hstay ⟨hwrap, hmux⟩
    simpa [hre] using gate_gatedFrom s.count

theorem tickWith_of_found {pm : Wiring} {s : State} {i : LedIndex} (hwrap : s.wraps = true) (hmux : s.muxEn = true)
    (hfind : findNext s.mask s.cursor = some i) :
    (tickWith pm s).sel = some (pm i) ∧ (tickWith pm s).cursor = cursorPast i := by
  rcases tickWith_cases pm s with ⟨j, -, -, hj, h⟩ | ⟨-, -, hnone, -⟩ | ⟨hstay, -⟩
  · obtain rfl := Option.some.inj (hfind.symm.trans hj)
    simp [h]
  · cases hfind.symm.trans hnone
  · exact absurd ⟨hwrap, hmux⟩ hstay

theorem tickWith_of_none {pm : Wiring} {s : State} (hwrap : s.wraps = true) (hmux : s.muxEn = true)
    (hfind : findNext s.mask s.cursor = none) :
    (tickWith pm s).sel = none ∧ (tickWith pm s).cursor = s.cursor := by
  rcases tickWith_cases pm s with ⟨j, -, -, hj, -⟩ | ⟨-, -, -, h⟩ | ⟨hstay, -⟩
  · cases hfind.symm.trans hj
  · simp [h]
  · exact absurd ⟨hwrap, hmux⟩ hstay

theorem tickWith_of_no_advance {s : State} (hstay : ¬ (s.wraps = true ∧ s.muxEn = true)) (pm : Wiring) :
    tickWith pm s = s.count.gate := by
  rw [tickWith_eq, if_neg fun h => hstay (Bool.and_eq_true_iff.mp h)]

/-- Settles O33: the counter, the cursor advance and the gating, each by its own rule. -/
theorem tickCountsSelectsAndGates : Obligations.TickCountsSelectsAndGates := by
  intro s
  obtain ⟨hmask, hbright, hmux, hfast, hdirect, hrsp, hinputs⟩ := tickWith_keeps pinMap s
  have hgated := tickWith_gatedFrom pinMap s
  refine ⟨tickWith pinMap s, rfl, hmask, hbright, hmux, hfast, hdirect, hinputs, hrsp, ?_⟩
  simp only [← wraps_iff]
  refine ⟨tickWith_cnt_toNat pinMap s, ?_, s.reselects, _, _, reselects_iff s, fun i hre hfind => ?_,
    fun ⟨hwrap, hmux, hfind⟩ => tickWith_of_none hwrap hmux hfind, fun hstay => ?_, rfl, rfl,
    hgated.drives, fun hoff hon q => ?_, hgated.keeps⟩
  · rw [tickWith_ledOn, wantOn_iff, hbright]
    exact and_congr_right fun _ => ⟨fun hlt => ⟨Nat.zero_lt_of_lt hlt, hlt⟩, And.right⟩
  · obtain ⟨hwrap, hmux, -⟩ := (reselects_iff s).mp hre
    obtain ⟨hsel, hcursor⟩ := tickWith_of_found (pm := pinMap) hwrap hmux hfind
    exact ⟨hsel, by rw [hcursor, cursorPast_toNat]⟩
  · rw [tickWith_of_no_advance hstay]
    simp
  · rw [hgated.releases hoff hon, allZ_get]

/-! ### What a tick does not depend on -/

section Follow

variable {s : State} (hfollow : s.pins = shownPins s.sel s.ledOn)
include hfollow

theorem tickWith_follow (pm : Wiring) :
    (tickWith pm s).pins = shownPins (tickWith pm s).sel (tickWith pm s).ledOn := by
  have hready : GateReady s.count := gateReady_of_follow hfollow
  rcases tickWith_cases pm s with ⟨i, -, -, -, h⟩ | ⟨-, -, -, h⟩ | ⟨-, h⟩ <;> rw [h]
  · exact GateReady.follow_gate ⟨fun _ => allOff_eq s.pins, nofun⟩
  · exact hready.setSel_none.follow_gate
  · exact hready.follow_gate

/-- A tick may as well start from blanked pins. -/
theorem tickWith_release (pm : Wiring) : tickWith pm s.release = tickWith pm s := by
  have hready : GateReady s.count := gateReady_of_follow hfollow
  have hrelease : s.count.release.release = s.count.release := by simp only [release_eq]; rfl
  rw [tickWith_eq, tickWith_eq]
  change (if s.wraps && s.muxEn then s.count.release.selectNext pm else s.count.release).gate = _
  split
  · unfold State.selectNext
    simp only [State.release_mask, State.release_cursor, hrelease]
    cases findNext s.count.mask s.count.cursor with
    | none => exact hready.setSel_none.gate_release
    | some i => rfl
  · exact hready.gate_release

end Follow

/-- Settles O34: the two states blanked are one. -/
theorem tickIgnoresOldPinsAndDrivenFlag : Obligations.TickIgnoresOldPinsAndDrivenFlag := by
  intro s on ps hfollow hps
  refine ⟨?_, fun t ht => ?_⟩
  · have hblank : ({ s with ledOn := on, pins := ps } : State).release = s.release := by
      rw [release_eq, release_eq]
      rfl
    change Host.Outcome.next (tickWith pinMap _) = Host.Outcome.next (tickWith pinMap s)
    rw [← tickWith_release hfollow, ← hblank, tickWith_release hps]
  · cases ht
    exact tickWith_follow hfollow pinMap

/-! ### The slot states -/

theorem slotState_noneSelected_iff (s : State) :
    s.slotState = some .noneSelected ↔ s.sel = none ∧ s.ledOn = false := by
  unfold State.slotState
  cases s.sel <;> cases s.ledOn <;> simp

theorem slotState_idleSelected_iff (s : State) :
    s.slotState = some .idleSelected ↔ s.sel ≠ none ∧ s.ledOn = false := by
  unfold State.slotState
  cases s.sel <;> cases s.ledOn <;> simp

theorem slotState_driving_iff (s : State) :
    s.slotState = some .driving ↔ s.sel ≠ none ∧ s.ledOn = true := by
  unfold State.slotState
  cases s.sel <;> cases s.ledOn <;> simp

theorem Inv.slotState_eq {s : State} (hinv : Inv s) :
    s.slotState = some (if s.ledOn then .driving else if s.sel = none then .noneSelected else .idleSelected) := by
  cases hled : s.ledOn with
  | true => exact (slotState_driving_iff s).mpr ⟨hinv.driven_selected hled, hled⟩
  | false =>
    by_cases hsel : s.sel = none
    · rw [if_neg Bool.false_ne_true, if_pos hsel, slotState_noneSelected_iff]
      exact ⟨hsel, hled⟩
    · rw [if_neg Bool.false_ne_true, if_neg hsel, slotState_idleSelected_iff]
      exact ⟨hsel, hled⟩

/-- Settles O35: a tick keeps the invariants and leaves `LED_ON` at `WANT_ON()`, so the state machine reads off them. -/
theorem slotStateAfterTick : Obligations.SlotStateAfterTick := by
  intro s hinv
  have hafter : Inv (tickWith pinMap s) := tick_inv hinv
  refine ⟨tickWith pinMap s, rfl, ?_, fun hslot => ?_, fun hslot => ?_, fun hslot => ?_⟩
  · rw [← tickWith_ledOn]
    exact hafter.slotState_eq
  · obtain ⟨hsel, hled⟩ := (slotState_noneSelected_iff _).mp hslot
    exact ⟨hsel, hled, hafter.pins_of_ledOn_false hled⟩
  · obtain ⟨hsel, hled⟩ := (slotState_idleSelected_iff _).mp hslot
    exact ⟨hsel, hled, hafter.pins_of_ledOn_false hled⟩
  · obtain ⟨hsel, hled⟩ := (slotState_driving_iff _).mp hslot
    obtain ⟨p, hsel⟩ := Option.ne_none_iff_exists'.mp hsel
    exact ⟨p, hsel, hled, by rw [hafter.pins_follow, hsel, hled, shownPins]⟩

/-! ### The ticks of a slot -/

theorem runTicks_succ {n : Nat} {s t : State} (h : runTicks n s = .next t) :
    runTicks (n + 1) s = .next (tickWith pinMap t) := by
  change runEvents _ s = _ at h
  rw [runTicks, List.replicate_succ', runEvents_append, h, andThen_next, runEvents_singleton]
  rfl

/-- Gating a state, then again at another count, is gating it at that count. -/
theorem GateReady.gate_setCnt_gate {s : State} (h : GateReady s) (v : Byte) :
    (s.gate.setCnt v).gate = (s.setCnt v).gate := by
  have hgated : GateReady (s.gate.setCnt v) := gateReady_of_follow h.follow_gate
  have hblank : (s.gate.setCnt v).release = (s.setCnt v).release := by
    rw [gate_keeps, release_eq, release_eq]
    rfl
  rw [← hgated.gate_release, hblank, (h.setCnt v).gate_release]

section Slot

variable {s : State} (hready : GateReady s)
include hready

/-- A tick that does not end the period moves a gated state to the next count. -/
theorem tickWith_gate_setCnt {n : Nat} (hn : n + 1 < s.period) (pm : Wiring) :
    tickWith pm (s.setCnt (BitVec.ofNat 8 n)).gate = (s.setCnt (BitVec.ofNat 8 (n + 1))).gate := by
  have hwrap : ¬ (s.setCnt (BitVec.ofNat 8 n)).gate.wraps = true := by
    rw [not_wraps_iff, State.gate_cnt, State.setCnt_cnt, toNat_ofNat_of_lt_period (Nat.lt_of_succ_lt hn), gate_keeps]
    exact hn
  rw [tickWith_of_no_advance fun hadv => hwrap hadv.1, count_of_not_wraps hwrap,
    (hready.setCnt _).gate_setCnt_gate, State.gate_cnt, State.setCnt_cnt, BitVec.ofNat_add]
  rfl

theorem runTicks_of_lt_period (hcnt : s.cnt = 0) (hled : s.ledOn = s.wantOn) {n : Nat} (hn : n < s.period) :
    runTicks n s = .next (s.setCnt (BitVec.ofNat 8 n)).gate := by
  induction n with
  | zero =>
    have hsame : s.setCnt 0 = s := by rw [← hcnt]; rfl
    have hgate : s.gate = s := by
      rcases gate_cases s with ⟨p, hwant, hoff, -⟩ | ⟨hwant, hon, -⟩ | ⟨-, h⟩
      · exact absurd (hled.trans hwant) (by simp [hoff])
      · exact absurd (hled.trans hwant) (by simp [hon])
      · exact h
    change Host.Outcome.next s = .next (s.setCnt 0).gate
    rw [hsame, hgate]
  | succ n ih => rw [runTicks_succ (ih (Nat.lt_of_succ_lt hn)), tickWith_gate_setCnt hready hn]

end Slot

/-- Settles O37: after `n` ticks the slot is its first state, gated at the count `n`. -/
theorem slotIsLitForItsFirstBrightTicks : Obligations.SlotIsLitForItsFirstBrightTicks := by
  intro s n hinv hcnt hled hn
  have hready : GateReady s := gateReady_of_follow hinv.pins_follow
  refine ⟨_, runTicks_of_lt_period hready hcnt hled hn, ?_, ?_, (hready.setCnt _).follow_gate.trans ?_⟩
  · rw [State.gate_ledOn]
    exact gate_keeps (s.setCnt (BitVec.ofNat 8 n))
  · rw [State.gate_ledOn, wantOn_iff, State.setCnt_cnt, toNat_ofNat_of_lt_period hn, Nat.lt_min, and_iff_left hn]
    rfl
  · rw [State.gate_sel, State.setCnt_sel]

/-! ### The sweep -/

/-- The LEDs a search probes, in order (R108). -/
def scan (cur : BitVec 6) : List LedIndex := (List.range Config.probes).map (probeIndex cur)

/-- The enabled LEDs, in the order of a search. -/
def enabledFrom (m : Mask) (cur : BitVec 6) : List LedIndex := (scan cur).filter (maskBit m)

theorem findNext_eq_find?_scan (m : Mask) (cur : BitVec 6) : findNext m cur = (scan cur).find? (maskBit m) := rfl

/-- A scan is the LEDs in ascending order, rotated to the cursor. -/
theorem scan_eq_rotate (cur : BitVec 6) : scan cur = (List.finRange 42).rotate cur.toNat := by
  apply List.ext_getElem
  · simp [scan, Config.probes]
  · intro k _ _
    simp [scan, probeIndex, List.getElem_rotate, Nat.add_comm]

theorem scan_perm (cur : BitVec 6) : (scan cur).Perm (List.finRange 42) := by
  rw [scan_eq_rotate]
  exact List.rotate_perm _ _

theorem length_enabledFrom (m : Mask) (cur : BitVec 6) : (enabledFrom m cur).length = popCount m := by
  rw [enabledFrom, ← List.countP_eq_length_filter, popCount, (scan_perm cur).countP_eq]

theorem nodup_enabledFrom (m : Mask) (cur : BitVec 6) : (enabledFrom m cur).Nodup :=
  ((scan_perm cur).nodup_iff.mpr (List.nodup_finRange 42)).filter _

theorem mem_enabledFrom (m : Mask) (cur : BitVec 6) (i : LedIndex) : i ∈ enabledFrom m cur ↔ maskBit m i = true := by
  rw [enabledFrom, List.mem_filter, (scan_perm cur).mem_iff]
  exact and_iff_right (List.mem_finRange i)

/-- A scan from past its `k`-th LED is the scan turned by `k + 1`. -/
theorem scan_cursorPast_probeIndex (cur : BitVec 6) (k : Nat) :
    scan (cursorPast (probeIndex cur k)) = (scan cur).rotate (k + 1) := by
  have hmod : ((cur.toNat + k) % 42 + 1) % 42 = (cur.toNat + (k + 1)) % (List.finRange 42).length := by
    rw [List.length_finRange]
    omega
  rw [scan_eq_rotate, scan_eq_rotate, cursorPast_toNat, List.rotate_rotate, ← List.rotate_mod _ (_ + _), ← hmod]
  rfl

/-- The search past the LED found finds the other enabled LEDs in the same order, and that LED last. -/
theorem enabledFrom_of_found {m : Mask} {cur : BitVec 6} {i : LedIndex} (h : findNext m cur = some i) :
    ∃ rest, enabledFrom m cur = i :: rest ∧ enabledFrom m (cursorPast i) = rest ++ [i] := by
  rw [findNext_eq_find?_scan, List.find?_eq_some_iff_append] at h
  obtain ⟨hbit, before, after, hscan, hoff⟩ := h
  have hprobe : i = probeIndex cur before.length := by
    have hget : (scan cur)[before.length]? = some i := by simp [hscan]
    rw [scan, List.getElem?_map, Option.map_eq_some_iff] at hget
    obtain ⟨k, hk, rfl⟩ := hget
    obtain ⟨-, rfl⟩ := List.getElem?_eq_some_iff.mp hk
    rw [List.getElem_range]
  have hpast : scan (cursorPast i) = after ++ (before ++ [i]) := by
    have hturn := scan_cursorPast_probeIndex cur before.length
    rw [← hprobe, hscan, List.append_cons] at hturn
    rw [hturn, ← List.rotate_append_length_eq (before ++ [i]) after, List.length_append, List.length_singleton]
  have hnone : before.filter (maskBit m) = [] := List.filter_eq_nil_iff.mpr fun j hj => by simpa using hoff j hj
  refine ⟨after.filter (maskBit m), ?_, ?_⟩
  · rw [enabledFrom, hscan, List.filter_append, hnone, List.nil_append, List.filter_cons_of_pos hbit]
  · rw [enabledFrom, hpast, List.filter_append, List.filter_append, hnone, List.nil_append,
      List.filter_cons_of_pos hbit, List.filter_nil]

/-- Up to one round, each search of a sweep takes the next enabled LED of the first scan. -/
theorem sweep_eq_take (m : Mask) {n : Nat} (hn : n ≤ popCount m) (cur : BitVec 6) :
    sweep m n cur = (enabledFrom m cur).take n := by
  induction n generalizing cur with
  | zero => rfl
  | succ n ih =>
    rw [sweep]
    cases hfind : findNext m cur with
    | none =>
      have hempty : enabledFrom m cur = [] := List.filter_eq_nil_iff.mpr (List.find?_eq_none.mp hfind)
      rw [← length_enabledFrom m cur, hempty] at hn
      cases hn
    | some i =>
      obtain ⟨rest, hhere, hpast⟩ := enabledFrom_of_found hfind
      have hlen : n ≤ rest.length := by
        rw [← length_enabledFrom m cur, hhere, List.length_cons] at hn
        exact Nat.le_of_succ_le_succ hn
      change i :: sweep m n (cursorPast i) = _
      rw [ih (Nat.le_of_succ_le hn), hpast, List.take_append_of_le_length hlen, hhere, List.take_succ_cons]

/-- Settles O42: a sweep of as many searches as there are enabled LEDs is the list of the enabled LEDs. -/
theorem sweepVisitsEveryEnabledLedOnce : Obligations.SweepVisitsEveryEnabledLedOnce := by
  intro m cur _
  have hsweep : sweep m (popCount m) cur = enabledFrom m cur := by
    rw [sweep_eq_take m le_rfl, ← length_enabledFrom m cur, List.take_length]
  rw [hsweep]
  exact ⟨nodup_enabledFrom m cur, mem_enabledFrom m cur⟩

end Sys2Proof.Machine
end

section
/-! The decoder, opcode by opcode (spec/30_encoding.md R73, R74): the instruction a word's opcode byte names, with the word's
own fields as its operands. -/

namespace Sys2Proof

/-- An instruction with its operands read from a word (R73). -/
def Instr.withOperandsOf (C : CmdWord) : Instr → Instr
  | .setBrightness _ => .setBrightness (valueField C)
  | .setLedBit _ _ => .setLedBit (indexField C) (stateField C)
  | .replaceBitmask _ _ => .replaceBitmask (w0Field C) (w1Field C)
  | .enableMultiplex _ _ => .enableMultiplex (w0Field C) (w1Field C)
  | .directDrive _ _ => .directDrive (indexField C) (stateField C)
  | .setFastPwmMode _ => .setFastPwmMode (enableField C)
  | i => i

/-- A word with the opcode of `i` is decoded to that command, whatever the operands of `i`. -/
theorem decodeCommand_of_opcode {C : CmdWord} {i : Instr} (hop : i.opcode = some (opcodeField C)) :
    decodeCommand C = .ok (i.withOperandsOf C) := by
  apply decode_of_encode
  cases i with
  | tick => cases hop
  | setBrightness => rw [Instr.withOperandsOf, Instr.format, keep_V, ← Option.some.inj hop, encode]
  | setLedBit | directDrive => rw [Instr.withOperandsOf, Instr.format, keep_IS, ← Option.some.inj hop, encode]
  | replaceBitmask | enableMultiplex => rw [Instr.withOperandsOf, Instr.format, keep_F, ← Option.some.inj hop, encode]
  | setFastPwmMode => rw [Instr.withOperandsOf, Instr.format, keep_E, ← Option.some.inj hop, encode]
  | getBrightness | readBitmask | clearAll | setAll | disableMultiplex =>
    change _ = Encoded.command (Format.N.keep C)
    rw [keep_N, ← Option.some.inj hop]
    rfl

end Sys2Proof
end

section
/-! The data commands (spec/42_data_ops.md R140 to R146): what they make of `BRIGHT` and of the cells of the bitmask. -/

namespace Sys2Proof.Machine

/-! ### Brightness -/

/-- A tick gates with the `BRIGHT` it finds. -/
theorem tickWith_ledOn_iff (pm : Wiring) (s : State) : (tickWith pm s).ledOn = true ↔
    (tickWith pm s).sel ≠ none ∧ (tickWith pm s).cnt.toNat < s.bright.toNat := by
  obtain ⟨-, hbright, -⟩ := tickWith_keeps pm s
  rw [tickWith_ledOn, wantOn_iff, hbright]

/-- Settles O16: the command writes `BRIGHT` and answers, and the tick after it finds the new value. -/
theorem setBrightnessWritesBrightAndActsAtNextTick : Obligations.SetBrightnessWritesBrightAndActsAtNextTick :=
  ⟨fun _ h => decodeCommand_of_opcode (i := .setBrightness 0) (congrArg some h.symm),
    fun _ _ => ⟨rfl, _, rfl, tickWith_ledOn_iff pinMap _⟩⟩

/-- Settles O17: the response is wide enough for `BRIGHT`. -/
theorem getBrightnessAnswersBright : Obligations.GetBrightnessAnswersBright :=
  ⟨fun _ h => decodeCommand_of_opcode (i := .getBrightness) (congrArg some h.symm),
    fun s => ⟨_, rfl, BitVec.toNat_setWidth_of_le (by decide)⟩⟩

/-! ### One cell -/

theorem indexOfLed_toNat (i : LedIndex) : (indexOfLed i).toNat = i.val :=
  Nat.mod_eq_of_lt (i.isLt.trans (by decide))

/-- Settles O18: an LED's index names one cell, and an index of 42 or more is the index of no cell. -/
theorem setLedBitWritesThatCellOnly : Obligations.SetLedBitWritesThatCellOnly := by
  refine ⟨fun _ h => decodeCommand_of_opcode (i := .setLedBit 0 false) (congrArg some h.symm), fun index state s => ?_⟩
  rcases execSetLedBit_cases index state s with ⟨i, rfl, hexec⟩ | ⟨hout, hexec⟩
  · refine ⟨writeMaskBit s.mask i state, hexec, fun j => ?_⟩
    simp only [maskBit_writeMaskBit, indexOfLed_toNat, Fin.val_inj]
  · exact ⟨s.mask, hexec, fun j => (if_neg (j.isLt.trans_le hout).ne).symm⟩

/-! ### The whole bitmask -/

/-- Settles O19: the frame's layout, cell by cell. -/
theorem replaceBitmaskInstallsTheFrame : Obligations.ReplaceBitmaskInstallsTheFrame :=
  ⟨fun _ h => decodeCommand_of_opcode (i := .replaceBitmask 0 0) (congrArg some h.symm),
    fun w0 w1 _ => ⟨_, rfl, maskBit_maskOfFrame w0 w1⟩⟩

theorem getLsbD_frameOfMask_of_le (m : Mask) {k : Nat} (hk : 42 ≤ k) : (frameOfMask m).getLsbD k = false := by
  rw [getLsbD_frameOfMask, dif_neg hk.not_gt]

/-- Settles O20: the read-back, bit by bit. -/
theorem readBitmaskAnswersEveryCell : Obligations.ReadBitmaskAnswersEveryCell :=
  ⟨fun _ h => decodeCommand_of_opcode (i := .readBitmask) (congrArg some h.symm), fun s =>
    ⟨_, rfl, fun j => (maskBit_eq_getLsbD_frameOfMask s.mask j).symm, fun _ => getLsbD_frameOfMask_of_le s.mask⟩⟩

theorem maskBit_zero (i : LedIndex) : maskBit 0 i = false := BitVec.getLsbD_zero

theorem maskBit_maskAll (i : LedIndex) : maskBit maskAll i = true := by
  rw [show maskAll = BitVec.allOnes 42 from rfl, maskBit, BitVec.getLsbD_allOnes, decide_eq_true i.isLt]

theorem popCount_eq_zero_iff (m : Mask) : popCount m = 0 ↔ ∀ i : LedIndex, maskBit m i = false := by
  simp [popCount, List.countP_eq_zero]

theorem popCount_eq_42_iff (m : Mask) : popCount m = 42 ↔ ∀ i : LedIndex, maskBit m i = true := by
  simpa [popCount] using List.countP_eq_length (p := maskBit m) (l := List.finRange 42)

/-- No cursor makes a search find what no cell enables, not even one above 41. -/
theorem findNext_of_no_led {m : Mask} (h : ∀ i : LedIndex, maskBit m i = false) (cur : BitVec 6) :
    findNext m cur = none := by
  rcases findNext_cases m cur with ⟨k, -, -, hbit, -⟩ | ⟨hnone, -⟩
  · exact absurd ((h _).symm.trans hbit) Bool.false_ne_true
  · exact hnone

/-- Settles O21: with every cell 0 there is nothing to count or to find. -/
theorem clearAllEmptiesTheBitmask : Obligations.ClearAllEmptiesTheBitmask :=
  ⟨fun _ h => decodeCommand_of_opcode (i := .clearAll) (congrArg some h.symm),
    fun _ => ⟨0, rfl, maskBit_zero, (popCount_eq_zero_iff 0).mpr maskBit_zero, findNext_of_no_led maskBit_zero⟩⟩

/-- Settles O22: with every cell 1 the count is their number. -/
theorem setAllFillsTheBitmask : Obligations.SetAllFillsTheBitmask :=
  ⟨fun _ h => decodeCommand_of_opcode (i := .setAll) (congrArg some h.symm),
    fun _ => ⟨maskAll, rfl, maskBit_maskAll, (popCount_eq_42_iff maskAll).mpr maskBit_maskAll⟩⟩

end Sys2Proof.Machine
end

section
/-! The mode commands (spec/43_mode_ops.md R160 to R166): what each makes of the registers, the table of mode transitions, and
the first ticks after `DIRECT_DRIVE` and `ENABLE_MULTIPLEX`. -/

namespace Sys2Proof.Machine

/-! ### The commands -/

/-- Settles O26: the frame's layout, cell by cell. -/
theorem enableMultiplexInstallsAndRestarts : Obligations.EnableMultiplexInstallsAndRestarts :=
  ⟨fun _ h => decodeCommand_of_opcode (i := .enableMultiplex 0 0) (congrArg some h.symm),
    fun w0 w1 _ => ⟨_, rfl, maskBit_maskOfFrame w0 w1⟩⟩

/-- Settles O27: the release tri-states pin after pin. -/
theorem disableMultiplexBlanksAtOnce : Obligations.DisableMultiplexBlanksAtOnce :=
  ⟨fun _ h => decodeCommand_of_opcode (i := .disableMultiplex) (congrArg some h.symm),
    fun s => ⟨allZ, exec_disableMultiplex s, allZ_get⟩⟩

/-- Settles O29: one register and the response. -/
theorem setFastPwmModeWritesFastOnly : Obligations.SetFastPwmModeWritesFastOnly :=
  ⟨fun _ h => decodeCommand_of_opcode (i := .setFastPwmMode false) (congrArg some h.symm), fun _ _ => rfl⟩

section DirectDrive

variable {index : Byte} {i : LedIndex} (hled : ledOfIndex index = some i) (s : State)
include hled

theorem exec_directDrive_on : exec (.directDrive index true) s = .next
    { s with
      sel := some (pinMap i), ledOn := false, pins := allZ, direct := true, muxEn := false, cnt := 0, rsp := some 0 } := by
  obtain rfl := ledOfIndex_eq_some.mp hled
  rw [exec, execDirectDrive, directDriveWith, hled, directDriveIn, if_pos rfl, release_eq, lookup_indexOfLed]
  rfl

theorem exec_directDrive_off : exec (.directDrive index false) s = .next
    { s with sel := none, ledOn := false, pins := allZ, direct := false, cnt := 0, rsp := some 0 } := by
  rw [exec, execDirectDrive, directDriveWith, hled, directDriveIn, if_neg Bool.false_ne_true, release_eq]
  rfl

end DirectDrive

/-- Settles O28: an index below 42 names the LED of that number. -/
theorem directDriveSelectsOrClears : Obligations.DirectDriveSelectsOrClears := by
  refine ⟨fun _ h => decodeCommand_of_opcode (i := .directDrive 0 false) (congrArg some h.symm), fun index h s => ?_⟩
  have hled := ledOfIndex_of_lt h
  exact ⟨allZ, allZ_get, exec_directDrive_on hled s, exec_directDrive_off hled s⟩

/-! ### The mode -/

/-- The mode is a function of the two flags (spec/10_state.md R31). -/
theorem mode_congr {s t : State} (hmux : t.muxEn = s.muxEn) (hdirect : t.direct = s.direct) : t.mode = s.mode := by
  rw [State.mode, State.mode, hmux, hdirect]

theorem mode_eq_mux_iff (s : State) : s.mode = some .mux ↔ s.muxEn = true ∧ s.direct = false := by
  unfold State.mode
  cases s.muxEn <;> cases s.direct <;> simp

theorem mode_eq_direct_iff (s : State) : s.mode = some .direct ↔ s.muxEn = false ∧ s.direct = true := by
  unfold State.mode
  cases s.muxEn <;> cases s.direct <;> simp

/-- Settles O30: the flags each command writes are the mode of its column; `DIRECT_DRIVE` with state 0 writes `DIRECT` alone
and so keeps MUX. -/
theorem modeTransitionTable : Obligations.ModeTransitionTable := by
  intro s m w0 w1 i hinv hmode
  have hled := ledOfIndex_indexOfLed i
  refine ⟨⟨_, rfl, rfl, rfl, rfl, rfl, ?_⟩, ⟨_, exec_disableMultiplex s, rfl, rfl, rfl, rfl⟩,
    ⟨_, exec_directDrive_on hled s, rfl, rfl, rfl, rfl, rfl⟩, ⟨_, exec_directDrive_off hled s, ?_, rfl, rfl, rfl⟩⟩
  · rintro rfl
    obtain ⟨hsel, -⟩ := hinv.idle_dark hmode
    exact hsel
  · cases m with
    | idle =>
      obtain ⟨hmux, -⟩ := (mode_eq_idle_iff s).mp hmode
      exact (mode_eq_idle_iff _).mpr ⟨hmux, rfl⟩
    | mux =>
      obtain ⟨hmux, -⟩ := (mode_eq_mux_iff s).mp hmode
      exact (mode_eq_mux_iff _).mpr ⟨hmux, rfl⟩
    | direct =>
      obtain ⟨hmux, -⟩ := (mode_eq_direct_iff s).mp hmode
      exact (mode_eq_idle_iff _).mpr ⟨hmux, rfl⟩

/-- Settles O31, effect by effect: one that keeps both flags keeps the mode. -/
theorem onlyModeSwitchCommandsChangeTheMode : Obligations.OnlyModeSwitchCommandsChangeTheMode := by
  intro i s t hexec hne
  cases exec_effect hexec with
  | answer | bright | mask | fast => exact absurd (mode_congr rfl rfl) hne
  | enable | disable => rfl
  | directOn led | directOff led => exact modeSwitch_directDrive_indexOfLed led _
  | tick =>
    obtain ⟨-, -, hmux, -, hdirect, -⟩ := tickWith_keeps pinMap s
    exact absurd (mode_congr hmux hdirect) hne

/-! ### The tick after `DIRECT_DRIVE` -/

theorem one_lt_period (s : State) : 1 < s.period := by
  unfold State.period
  split <;> decide

/-- No period is one tick long, so a counter just cleared does not wrap. -/
theorem not_wraps_of_cnt_eq_zero {s : State} (h : s.cnt = 0) : ¬ s.wraps = true := by
  rw [not_wraps_iff, h]
  exact one_lt_period s

/-- A selected LED whose slot begins blanked is driven by the first tick exactly when `BRIGHT` exceeds the count 1. -/
theorem tickWith_of_selected_blank {s : State} {p : PinPair} (hcnt : s.cnt = 0) (hsel : s.sel = some p)
    (hled : s.ledOn = false) (hpins : s.pins = allZ) (pm : Wiring) :
    (tickWith pm s).cnt.toNat = 1 ∧ (tickWith pm s).sel = some p ∧
    ((tickWith pm s).ledOn = true ↔ 2 ≤ s.bright.toNat) ∧
    (tickWith pm s).pins = shownPins (some p) (tickWith pm s).ledOn := by
  have hwrap := not_wraps_of_cnt_eq_zero hcnt
  have hcount : (tickWith pm s).cnt.toNat = 1 := by rw [tickWith_cnt_toNat, if_neg hwrap, hcnt]; rfl
  have hkept : (tickWith pm s).sel = some p := by
    rw [tickWith_of_no_advance fun hadv => hwrap hadv.1, State.gate_sel, State.count_sel, hsel]
  refine ⟨hcount, hkept, ?_, ?_⟩
  · simp [tickWith_ledOn_iff, hcount, hkept, Nat.succ_le_iff]
  · rw [tickWith_follow (by rw [hpins, hled, shownPins_false]) pm, hkept]

/-- Settles O32: the tick counts to 1 and gates at that count, from blanked pins. -/
theorem directDriveLightsAtTheNextTick : Obligations.DirectDriveLightsAtTheNextTick := by
  intro i s
  rw [exec_directDrive_on (ledOfIndex_indexOfLed i) s, andThen_next]
  obtain ⟨hcnt, hsel, hled, hpins⟩ := tickWith_of_selected_blank (s := { s with
    sel := some (pinMap i), ledOn := false, pins := allZ, direct := true, muxEn := false, cnt := 0, rsp := some 0 })
    rfl rfl rfl rfl pinMap
  refine ⟨_, rfl, hcnt, hsel, hled, fun hbright j => ?_, fun hbright q => ?_⟩
  · rw [hpins, hled.mpr hbright, shownPins, ledDriven_pairPins (pinMap_valid.anode_ne_cathode i),
      pinMap_valid.injective.eq_iff, eq_comm]
  · rw [hpins, Bool.eq_false_iff.mpr fun hon => hbright.not_ge (hled.mp hon), shownPins_false, allZ_get]

/-! ### The period after `ENABLE_MULTIPLEX` -/

/-- From a cleared counter, the ticks before the wrap write `CNT`, `LED_ON` and the pins alone. -/
theorem runTicks_before_wrap {s : State} (hcnt : s.cnt = 0) {n : Nat} (hn : n < s.period) :
    ∃ ps on, runTicks n s = .next (((s.setCnt (BitVec.ofNat 8 n)).setPins ps).setLedOn on) := by
  induction n with
  | zero => exact ⟨s.pins, s.ledOn, by rw [show BitVec.ofNat 8 0 = s.cnt from hcnt.symm]; rfl⟩
  | succ n ih =>
    obtain ⟨ps, on, hrun⟩ := ih (Nat.lt_of_succ_lt hn)
    have hwrap : ¬ (((s.setCnt (BitVec.ofNat 8 n)).setPins ps).setLedOn on).wraps = true := by
      rw [not_wraps_iff, State.setLedOn_cnt, State.setPins_cnt, State.setCnt_cnt,
        toNat_ofNat_of_lt_period (Nat.lt_of_succ_lt hn)]
      exact hn
    rw [runTicks_succ hrun, tickWith_of_no_advance fun hadv => hwrap hadv.1, count_of_not_wraps hwrap, gate_keeps,
      BitVec.ofNat_add]
    exact ⟨_, _, rfl⟩

theorem tickWith_sel_of_advance {s : State} (hwrap : s.wraps = true) (hmux : s.muxEn = true) (pm : Wiring) :
    (tickWith pm s).sel = (findNext s.mask s.cursor).map pm := by
  cases hfind : findNext s.mask s.cursor with
  | none => exact (tickWith_of_none hwrap hmux hfind).1
  | some i => exact (tickWith_of_found hwrap hmux hfind).1

/-- A period of ticks from a cleared counter clears it again, and its last tick selects what the search finds. -/
theorem runTicks_period {s : State} (hcnt : s.cnt = 0) (hmux : s.muxEn = true) :
    ∃ t, runTicks s.period s = .next t ∧ t.cnt = 0 ∧ t.sel = (findNext s.mask s.cursor).map pinMap := by
  obtain ⟨n, hn⟩ := Nat.exists_eq_succ_of_ne_zero (period_pos s).ne'
  have hlast : n < s.period := hn ▸ Nat.lt_succ_self n
  obtain ⟨ps, on, hrun⟩ := runTicks_before_wrap hcnt hlast
  have hwrap : (((s.setCnt (BitVec.ofNat 8 n)).setPins ps).setLedOn on).wraps = true := by
    refine decide_eq_true ?_
    rw [State.setLedOn_cnt, State.setPins_cnt, State.setCnt_cnt, toNat_ofNat_of_lt_period hlast]
    exact hn.le
  rw [hn, runTicks_succ hrun]
  exact ⟨_, rfl, by rw [tickWith_cnt, if_pos hwrap], tickWith_sel_of_advance hwrap hmux pinMap⟩

/-- A search from cursor 0 passes the LEDs in the order of their numbers. -/
theorem scanDistance_zero (j : LedIndex) : scanDistance 0 j = j.val := by
  rw [scanDistance]
  exact (Nat.add_mod_right j.val 42).trans (Nat.mod_eq_of_lt j.isLt)

theorem findNext_zero_of_lowest {m : Mask} {i : LedIndex} (hbit : maskBit m i = true)
    (hlow : ∀ j < i, maskBit m j = false) : findNext m 0 = some i := by
  refine (findNext_eq_some_iff (by decide) m i).mpr ⟨hbit, fun j hj => ?_⟩
  rw [scanDistance_zero, scanDistance_zero]
  exact not_lt.mp fun hlt => Bool.false_ne_true ((hlow j hlt).symm.trans hj)

/-- Settles O38: the counter starts at 0 and wraps at the last tick of the period, where the search starts from cursor 0. -/
theorem enableMultiplexSelectsOnePeriodLater : Obligations.EnableMultiplexSelectsOnePeriodLater := by
  intro s w0 w1
  obtain ⟨e, hexec, hmask, hmux, hcursor, hcnt, hsel, hperiod⟩ : ∃ e, exec (.enableMultiplex w0 w1) s = .next e ∧
      e.mask = maskOfFrame w0 w1 ∧ e.muxEn = true ∧ e.cursor = 0 ∧ e.cnt = 0 ∧ e.sel = s.sel ∧ e.period = s.period :=
    ⟨_, rfl, rfl, rfl, rfl, rfl, rfl, rfl⟩
  rw [hexec, andThen_next, ← hperiod]
  constructor
  · intro n hn
    obtain ⟨ps, on, hrun⟩ := runTicks_before_wrap hcnt hn
    exact ⟨_, hrun, toNat_ofNat_of_lt_period hn, hsel, hcursor⟩
  · obtain ⟨t, hrun, hcnt', hsel'⟩ := runTicks_period hcnt hmux
    rw [hmask, hcursor] at hsel'
    refine ⟨t, hrun, hcnt', fun hempty => ?_, fun i hbit hlow => ?_⟩
    · rw [hsel', hempty, findNext_of_no_led maskBit_zero, Option.map_none]
    · rw [hsel', findNext_zero_of_lowest hbit hlow, Option.map_some]

end Sys2Proof.Machine
end

section
/-! Clocks that present no instruction (spec/43_mode_ops.md R164, spec/30_encoding.md R70; log 3), and the order of a command
and a tick in one clock (spec/60_exceptions.md R186). -/

namespace Sys2Proof.Machine

theorem runClock_of_no_events {c : Clock} (hrst : c.rst = false) (hevents : c.events = []) (s : State) :
    runClock c s = .next s := by
  rw [runClock, hrst, hevents, if_neg Bool.false_ne_true, runEvents]

/-- A clock with a command performs it, then its tick if there is one. -/
theorem runClock_of_command {c : Clock} (hrst : c.rst = false) (hvalid : c.cmdValid = true) (s : State) :
    runClock c s = andThen (runCommand c.cmd s) fun t => if c.tick then exec .tick t else .next t := by
  rw [runClock, hrst, if_neg Bool.false_ne_true, Clock.events, hvalid, if_pos rfl, runEvents_append, runEvents_singleton]
  congr 1
  funext t
  cases c.tick with
  | false => rfl
  | true => exact runEvents_singleton .tick t

/-- Settles O51: the quiet clocks have no event, and the reserved opcode answers before the tick. -/
theorem stepWithoutAnInstruction : Obligations.StepWithoutAnInstruction := by
  intro s c rest
  refine ⟨fun hin hrst hvalid htick => ?_, fun hin => ?_, fun op hin hrst hvalid hreject => ?_⟩
  · have hevents : c.events = [] := by simp [Clock.events, hvalid, htick]
    rw [step_of_inputs hin, runClock_of_no_events hrst hevents]
    rfl
  · rw [step_of_no_inputs hin, runClock_of_no_events rfl rfl, State.beginClock, ← hin]
    rfl
  · rw [step_of_inputs hin, runClock_of_command hrst hvalid, runCommand_of_reject hreject, andThen_next]
    rfl

end Sys2Proof.Machine
end

section
/-! A command and a tick in one clock (spec/60_exceptions.md R186), and the pins under the host commands (R190). -/

namespace Sys2Proof.Machine

/-- `TICK` leaves the response port as it is (R186). -/
theorem tickWith_rsp (pm : Wiring) (s : State) : (tickWith pm s).rsp = s.rsp := by
  obtain ⟨-, -, -, -, -, hrsp, -⟩ := tickWith_keeps pm s
  exact hrsp

/-- Settles O50: the command's event comes first and has a next state, and the tick after it keeps the response. -/
theorem commandBeforeTickInOneClock : Obligations.CommandBeforeTickInOneClock := by
  intro s c rest i hin hrst hvalid htick hdecode
  obtain ⟨t, hexec⟩ := exec_completes i (s.beginClock rest)
  have hstep : step s = exec .tick t := by
    rw [step_of_inputs hin, runClock_of_command hrst hvalid, runCommand_of_decode hdecode, hexec, andThen_next,
      if_pos htick]
  exact ⟨t, tickWith pinMap t, hexec, rfl, hstep, tickWith_rsp pinMap t⟩

/-- What a host command does to the pins: the mode switches that drop the selection blank all seven, the others write none;
only the gating of a tick drives (R123). -/
theorem Effect.pins_kept_or_blanked {s t : State} {i : Instr} (h : Effect s i t) (hi : i ≠ .tick) :
    t.pins = s.pins ∨ t.pins = allZ := by
  cases h with
  | answer | bright | mask | fast | enable => exact .inl rfl
  | disable | directOn | directOff => exact .inr rfl
  | tick => exact absurd rfl hi

/-- Settles O54, with every pin of blanked pins being Z. -/
theorem noHostCommandDrivesAPin : Obligations.NoHostCommandDrivesAPin := by
  intro i s t p hi hexec
  rcases (exec_effect hexec).pins_kept_or_blanked hi with hkept | hblank
  · exact .inl (by rw [hkept])
  · exact .inr (by rw [hblank, allZ_get])

end Sys2Proof.Machine
end

section
/-! Reset and the idle mode (spec/70_reset_and_hazards.md R200, R202; log 3): a clock with `rst = 1`, and ticks while
nothing is selected. -/

namespace Sys2Proof.Machine

/-! ### Reset -/

/-- Reset is decided before the clock's events, so the command and the tick it presents are never looked at (R200). -/
theorem runClock_of_rst {c : Clock} (hrst : c.rst = true) (s : State) :
    runClock c s = .next (State.reset.setInputs s.inputs) := by
  rw [runClock, if_pos hrst]

/-- Settles O3: the clock's ports are off the queue when the reset is performed. -/
theorem resetClockOverridesCommandAndTick : Obligations.ResetClockOverridesCommandAndTick := by
  intro s c rest hin hrst
  rw [step_of_inputs hin, runClock_of_rst hrst, State.beginClock_inputs]
  rfl

/-! ### Counting in mode IDLE -/

/-- With nothing selected nothing is wanted, so the gating of a dark state has nothing to do. -/
theorem gate_of_dark {s : State} (hsel : s.sel = none) (hled : s.ledOn = false) : s.gate = s := by
  rcases gate_cases s with ⟨p, -, -, hp, -⟩ | ⟨-, hon, -⟩ | ⟨-, h⟩
  · cases hsel.symm.trans hp
  · cases hled.symm.trans hon
  · exact h

/-- A tick with multiplexing off and nothing selected is its first step alone (R125). -/
theorem tickWith_of_dark {s : State} (hmux : s.muxEn = false) (hsel : s.sel = none) (hled : s.ledOn = false)
    (pm : Wiring) : tickWith pm s = s.count := by
  have hstay : ¬ (s.wraps = true ∧ s.muxEn = true) := fun ⟨_, hon⟩ => Bool.false_ne_true (hmux.symm.trans hon)
  rw [tickWith_of_no_advance hstay, gate_of_dark (s := s.count) hsel hled]

/-- Of a counter below the period, the wrap of R121 is counting modulo the period. -/
theorem count_of_lt_period {s : State} (hcnt : s.cnt.toNat < s.period) :
    s.count = s.setCnt (BitVec.ofNat 8 ((s.cnt.toNat + 1) % s.period)) := by
  by_cases hwrap : s.wraps = true
  · have hlast : s.cnt.toNat + 1 = s.period := Nat.le_antisymm hcnt (of_decide_eq_true hwrap)
    rw [State.count, if_pos hwrap, hlast, Nat.mod_self]
    rfl
  · rw [count_of_not_wraps hwrap, Nat.mod_eq_of_lt ((not_wraps_iff s).mp hwrap), BitVec.ofNat_add, BitVec.ofNat_toNat,
      BitVec.setWidth_eq]
    rfl

theorem count_setCnt_mod_period (s : State) (n : Nat) :
    (s.setCnt (BitVec.ofNat 8 (n % s.period))).count = s.setCnt (BitVec.ofNat 8 ((n + 1) % s.period)) := by
  have hlt : n % s.period < s.period := Nat.mod_lt n (period_pos s)
  have hread : (s.setCnt (BitVec.ofNat 8 (n % s.period))).cnt.toNat = n % s.period := toNat_ofNat_of_lt_period hlt
  rw [count_of_lt_period (hread.trans_lt hlt), hread]
  change s.setCnt (BitVec.ofNat 8 ((n % s.period + 1) % s.period)) = _
  rw [Nat.mod_add_mod]

/-- Settles O39: each tick counts once modulo the period and keeps the state dark for the next. -/
theorem idleTicksOnlyCount : Obligations.IdleTicksOnlyCount := by
  intro s n hinv hidle hcnt
  obtain ⟨hmux, -⟩ := (mode_eq_idle_iff s).mp hidle
  obtain ⟨hsel, hled, -⟩ := hinv.idle_dark hidle
  have htick (v : Byte) : tickWith pinMap (s.setCnt v) = (s.setCnt v).count :=
    tickWith_of_dark (s := s.setCnt v) hmux hsel hled pinMap
  change runTicks n s = .next (s.setCnt (BitVec.ofNat 8 ((s.cnt.toNat + n) % s.period)))
  induction n with
  | zero =>
    rw [Nat.add_zero, Nat.mod_eq_of_lt hcnt, BitVec.ofNat_toNat, BitVec.setWidth_eq]
    rfl
  | succ n ih => rw [runTicks_succ ih, htick, count_setCnt_mod_period, Nat.add_assoc]

end Sys2Proof.Machine
end

section
/-! The laws of the data commands (spec/42_data_ops.md R147): the round trip of a frame through the bitmask, and two
`SET_LED_BIT` commands one after the other. -/

namespace Sys2Proof.Machine

/-! ### The round trip of a frame -/

/-- The bits the bitmask keeps of a frame (D7). -/
theorem getLsbD_ledBits (k : Nat) : (0x3FFFFFFFFFF : Frame64).getLsbD k = decide (k < 42) := by
  rw [show (0x3FFFFFFFFFF : Frame64) = (BitVec.allOnes 42).setWidth 64 from rfl, BitVec.getLsbD_setWidth,
    BitVec.getLsbD_allOnes, Bool.and_eq_right_iff_imp]
  exact fun hk => decide_eq_true ((of_decide_eq_true hk).trans (by decide))

/-- Installing a frame and reading it back loses bits 63:42. -/
theorem frameOfMask_maskOfFrame (w0 w1 : Word32) :
    frameOfMask (maskOfFrame w0 w1) = (w1 ++ w0 : Frame64) &&& 0x3FFFFFFFFFF := by
  apply BitVec.eq_of_getLsbD_eq
  intro k _
  rw [getLsbD_frameOfMask, BitVec.getLsbD_and, getLsbD_ledBits]
  by_cases hled : k < 42
  · rw [dif_pos hled, maskBit_maskOfFrame, ← BitVec.getLsbD_append, decide_eq_true hled, Bool.and_true]
  · rw [dif_neg hled, decide_eq_false hled, Bool.and_false]

/-- Settles O24: the response is the read-back of the bitmask just installed. -/
theorem readAfterReplaceAnswersTheMaskedFrame : Obligations.ReadAfterReplaceAnswersTheMaskedFrame :=
  fun w0 w1 _ => ⟨_, rfl, congrArg some (frameOfMask_maskOfFrame w0 w1)⟩

/-! ### Two writes of cells -/

/-- The cells decide the next state of `SET_LED_BIT` (R142). -/
theorem exec_setLedBit_of_cells {index : Byte} {state : Bool} {s : State} {m : Mask}
    (hcells : ∀ k : LedIndex, maskBit m k = if k.val = index.toNat then state else maskBit s.mask k) :
    exec (.setLedBit index state) s = .next { s with mask := m, rsp := some 0 } := by
  obtain ⟨n, hexec, hn⟩ := setLedBitWritesThatCellOnly.2 index state s
  obtain rfl : m = n := mask_ext fun k => (hcells k).trans (hn k).symm
  exact hexec

/-- Different indices name different cells, so no cell sees which command came last. -/
theorem exec_setLedBit_comm {i j : Byte} (hij : i ≠ j) (b d : Bool) (s : State) :
    andThen (exec (.setLedBit i b) s) (exec (.setLedBit j d)) =
      andThen (exec (.setLedBit j d) s) (exec (.setLedBit i b)) := by
  obtain ⟨mi, hi, hmi⟩ := setLedBitWritesThatCellOnly.2 i b s
  obtain ⟨mj, hj, hmj⟩ := setLedBitWritesThatCellOnly.2 j d s
  obtain ⟨m, hboth, hm⟩ := setLedBitWritesThatCellOnly.2 j d { s with mask := mi, rsp := some 0 }
  have hswap (k : LedIndex) : maskBit m k = if k.val = i.toNat then b else maskBit mj k := by
    rw [hm, hmi, hmj]
    exact ite_ite_comm _ _ _ _ fun hkj hki => hij (BitVec.eq_of_toNat_eq (hki.symm.trans hkj))
  rw [hi, hj, andThen_next, andThen_next, hboth, exec_setLedBit_of_cells hswap]

/-- A second write of the same value finds the cell as it leaves it. -/
theorem exec_setLedBit_idem (i : Byte) (b : Bool) (s : State) :
    andThen (exec (.setLedBit i b) s) (exec (.setLedBit i b)) = exec (.setLedBit i b) s := by
  obtain ⟨m, hexec, hm⟩ := setLedBitWritesThatCellOnly.2 i b s
  have hkept (k : LedIndex) : maskBit m k = if k.val = i.toNat then b else maskBit m k :=
    right_eq_ite_iff.mpr fun hk => (hm k).trans (if_pos hk)
  rw [hexec, andThen_next, exec_setLedBit_of_cells hkept]

/-- Settles O25: both laws hold cell by cell, for an index that names no cell too. -/
theorem setLedBitCommutesAndIsIdempotent : Obligations.SetLedBitCommutesAndIsIdempotent :=
  fun i _ b d s => ⟨fun hij => exec_setLedBit_comm hij b d s, exec_setLedBit_idem i b s⟩

end Sys2Proof.Machine
end
